-- ==== Sys2Proof/Word.lean ====
section
/-! DEFINITION. The two word types of the hardware: an 8-bit data byte and a 16-bit address (00_scope.md R5). -/

namespace Sys2Proof

/-- An 8-bit data value (`XLEN` = 8, R5). -/
abbrev Byte := BitVec 8

/-- A 16-bit address (`ALEN` = 16, R5). -/
abbrev Addr := BitVec 16

end Sys2Proof
end

