-- ==== Sys2Proof/Syntax.lean ====
section
/-! DEFINITION. The instructions as syntax: the thirteen formats (30_encoding.md R71), the 56 mnemonics and one constructor
for each of the 151 rows of spec/opcode_table.json (R74, R75), each with its operand bytes. -/

namespace Sys2Proof

/-- The thirteen formats, one per addressing mode (30_encoding.md R71). -/
inductive Format where
  | imp | acc | imm | zp | zpx | zpy | abs | abx | aby | ind | izx | izy | rel
  deriving DecidableEq, Repr

/-- The mnemonics: 48 documented and 8 of the extension set (R75, R77). -/
inductive Mnemonic where
  | ora | and | eor | bit | adc | sbc | cmp | cpx | cpy | asl | lsr | rol | ror | inc
  | dec | inx | dex | iny | dey | lda | ldx | ldy | sta | stx | sty | tax | txa | tay
  | tya | tsx | txs | bpl | bmi | bvc | bvs | bcc | bcs | bne | beq | pha | pla | php
  | plp | jmp | jsr | rts | rti | clc | sec | cli | sei | clv | cld | sed | nop | brk
  deriving DecidableEq, Repr

/-- An operand as written: the format with its operand bytes (R72), before any address is computed. -/
inductive Operand where
  /-- IMP: no operand byte. -/
  | imp
  /-- ACC: no operand byte, the operand is `A`. -/
  | acc
  /-- IMM: the value byte. -/
  | imm (v : Byte)
  /-- ZP: a zero-page address. -/
  | zp (b : Byte)
  /-- ZPX: a zero-page base, indexed by `X`. -/
  | zpx (b : Byte)
  /-- ZPY: a zero-page base, indexed by `Y`. -/
  | zpy (b : Byte)
  /-- ABS: a 16-bit address. -/
  | abs (w : Addr)
  /-- ABX: a 16-bit base, indexed by `X`. -/
  | abx (w : Addr)
  /-- ABY: a 16-bit base, indexed by `Y`. -/
  | aby (w : Addr)
  /-- IND: the address of a 16-bit pointer. -/
  | ind (p : Addr)
  /-- IZX: a zero-page base; the pointer stands at base plus `X`. -/
  | izx (b : Byte)
  /-- IZY: the zero-page address of a pointer, to which `Y` is added. -/
  | izy (b : Byte)
  /-- REL: a signed branch offset. -/
  | rel (off : Byte)
  deriving DecidableEq, Repr

/-- The format of an operand. -/
def Operand.format : Operand → Format
  | .imp => .imp | .acc => .acc | .imm _ => .imm | .zp _ => .zp | .zpx _ => .zpx | .zpy _ => .zpy | .abs _ => .abs
  | .abx _ => .abx | .aby _ => .aby | .ind _ => .ind | .izx _ => .izx | .izy _ => .izy | .rel _ => .rel

/-- One constructor per row of spec/opcode_table.json, with the row's operand: a byte for the two-byte formats, the
assembled 16-bit operand `b2:b1` for the three-byte formats (R72). A mnemonic with one form has its plain name. -/
inductive Instr where
  | oraImm (v : Byte)
  | oraZp (zp : Byte)
  | oraZpx (zp : Byte)
  | oraAbs (w : Addr)
  | oraAbx (w : Addr)
  | oraAby (w : Addr)
  | oraIzx (zp : Byte)
  | oraIzy (zp : Byte)
  | andImm (v : Byte)
  | andZp (zp : Byte)
  | andZpx (zp : Byte)
  | andAbs (w : Addr)
  | andAbx (w : Addr)
  | andAby (w : Addr)
  | andIzx (zp : Byte)
  | andIzy (zp : Byte)
  | eorImm (v : Byte)
  | eorZp (zp : Byte)
  | eorZpx (zp : Byte)
  | eorAbs (w : Addr)
  | eorAbx (w : Addr)
  | eorAby (w : Addr)
  | eorIzx (zp : Byte)
  | eorIzy (zp : Byte)
  | bitZp (zp : Byte)
  | bitAbs (w : Addr)
  | adcImm (v : Byte)
  | adcZp (zp : Byte)
  | adcZpx (zp : Byte)
  | adcAbs (w : Addr)
  | adcAbx (w : Addr)
  | adcAby (w : Addr)
  | adcIzx (zp : Byte)
  | adcIzy (zp : Byte)
  | sbcImm (v : Byte)
  | sbcZp (zp : Byte)
  | sbcZpx (zp : Byte)
  | sbcAbs (w : Addr)
  | sbcAbx (w : Addr)
  | sbcAby (w : Addr)
  | sbcIzx (zp : Byte)
  | sbcIzy (zp : Byte)
  | cmpImm (v : Byte)
  | cmpZp (zp : Byte)
  | cmpZpx (zp : Byte)
  | cmpAbs (w : Addr)
  | cmpAbx (w : Addr)
  | cmpAby (w : Addr)
  | cmpIzx (zp : Byte)
  | cmpIzy (zp : Byte)
  | cpxImm (v : Byte)
  | cpxZp (zp : Byte)
  | cpxAbs (w : Addr)
  | cpyImm (v : Byte)
  | cpyZp (zp : Byte)
  | cpyAbs (w : Addr)
  | aslAcc
  | aslZp (zp : Byte)
  | aslZpx (zp : Byte)
  | aslAbs (w : Addr)
  | aslAbx (w : Addr)
  | lsrAcc
  | lsrZp (zp : Byte)
  | lsrZpx (zp : Byte)
  | lsrAbs (w : Addr)
  | lsrAbx (w : Addr)
  | rolAcc
  | rolZp (zp : Byte)
  | rolZpx (zp : Byte)
  | rolAbs (w : Addr)
  | rolAbx (w : Addr)
  | rorAcc
  | rorZp (zp : Byte)
  | rorZpx (zp : Byte)
  | rorAbs (w : Addr)
  | rorAbx (w : Addr)
  | incZp (zp : Byte)
  | incZpx (zp : Byte)
  | incAbs (w : Addr)
  | incAbx (w : Addr)
  | decZp (zp : Byte)
  | decZpx (zp : Byte)
  | decAbs (w : Addr)
  | decAbx (w : Addr)
  | inx
  | dex
  | iny
  | dey
  | ldaImm (v : Byte)
  | ldaZp (zp : Byte)
  | ldaZpx (zp : Byte)
  | ldaAbs (w : Addr)
  | ldaAbx (w : Addr)
  | ldaAby (w : Addr)
  | ldaIzx (zp : Byte)
  | ldaIzy (zp : Byte)
  | ldxImm (v : Byte)
  | ldxZp (zp : Byte)
  | ldxZpy (zp : Byte)
  | ldxAbs (w : Addr)
  | ldxAby (w : Addr)
  | ldyImm (v : Byte)
  | ldyZp (zp : Byte)
  | ldyZpx (zp : Byte)
  | ldyAbs (w : Addr)
  | ldyAbx (w : Addr)
  | staZp (zp : Byte)
  | staZpx (zp : Byte)
  | staAbs (w : Addr)
  | staAbx (w : Addr)
  | staAby (w : Addr)
  | staIzx (zp : Byte)
  | staIzy (zp : Byte)
  | stxZp (zp : Byte)
  | stxZpy (zp : Byte)
  | stxAbs (w : Addr)
  | styZp (zp : Byte)
  | styZpx (zp : Byte)
  | styAbs (w : Addr)
  | tax
  | txa
  | tay
  | tya
  | tsx
  | txs
  | bpl (off : Byte)
  | bmi (off : Byte)
  | bvc (off : Byte)
  | bvs (off : Byte)
  | bcc (off : Byte)
  | bcs (off : Byte)
  | bne (off : Byte)
  | beq (off : Byte)
  | pha
  | pla
  | php
  | plp
  | jmpAbs (w : Addr)
  | jmpInd (p : Addr)
  | jsr (w : Addr)
  | rts
  | rti
  | clc
  | sec
  | cli
  | sei
  | clv
  | cld
  | sed
  | nop
  | brk
  deriving DecidableEq, Repr

/-- The mnemonic of an instruction: its row's "mnemonic" in spec/opcode_table.json. -/
def Instr.mnemonic : Instr → Mnemonic
  | .oraImm _ | .oraZp _ | .oraZpx _ | .oraAbs _ | .oraAbx _ | .oraAby _ | .oraIzx _ | .oraIzy _ => .ora
  | .andImm _ | .andZp _ | .andZpx _ | .andAbs _ | .andAbx _ | .andAby _ | .andIzx _ | .andIzy _ => .and
  | .eorImm _ | .eorZp _ | .eorZpx _ | .eorAbs _ | .eorAbx _ | .eorAby _ | .eorIzx _ | .eorIzy _ => .eor
  | .bitZp _ | .bitAbs _ => .bit
  | .adcImm _ | .adcZp _ | .adcZpx _ | .adcAbs _ | .adcAbx _ | .adcAby _ | .adcIzx _ | .adcIzy _ => .adc
  | .sbcImm _ | .sbcZp _ | .sbcZpx _ | .sbcAbs _ | .sbcAbx _ | .sbcAby _ | .sbcIzx _ | .sbcIzy _ => .sbc
  | .cmpImm _ | .cmpZp _ | .cmpZpx _ | .cmpAbs _ | .cmpAbx _ | .cmpAby _ | .cmpIzx _ | .cmpIzy _ => .cmp
  | .cpxImm _ | .cpxZp _ | .cpxAbs _ => .cpx
  | .cpyImm _ | .cpyZp _ | .cpyAbs _ => .cpy
  | .aslAcc | .aslZp _ | .aslZpx _ | .aslAbs _ | .aslAbx _ => .asl
  | .lsrAcc | .lsrZp _ | .lsrZpx _ | .lsrAbs _ | .lsrAbx _ => .lsr
  | .rolAcc | .rolZp _ | .rolZpx _ | .rolAbs _ | .rolAbx _ => .rol
  | .rorAcc | .rorZp _ | .rorZpx _ | .rorAbs _ | .rorAbx _ => .ror
  | .incZp _ | .incZpx _ | .incAbs _ | .incAbx _ => .inc
  | .decZp _ | .decZpx _ | .decAbs _ | .decAbx _ => .dec
  | .inx => .inx
  | .dex => .dex
  | .iny => .iny
  | .dey => .dey
  | .ldaImm _ | .ldaZp _ | .ldaZpx _ | .ldaAbs _ | .ldaAbx _ | .ldaAby _ | .ldaIzx _ | .ldaIzy _ => .lda
  | .ldxImm _ | .ldxZp _ | .ldxZpy _ | .ldxAbs _ | .ldxAby _ => .ldx
  | .ldyImm _ | .ldyZp _ | .ldyZpx _ | .ldyAbs _ | .ldyAbx _ => .ldy
  | .staZp _ | .staZpx _ | .staAbs _ | .staAbx _ | .staAby _ | .staIzx _ | .staIzy _ => .sta
  | .stxZp _ | .stxZpy _ | .stxAbs _ => .stx
  | .styZp _ | .styZpx _ | .styAbs _ => .sty
  | .tax => .tax
  | .txa => .txa
  | .tay => .tay
  | .tya => .tya
  | .tsx => .tsx
  | .txs => .txs
  | .bpl _ => .bpl
  | .bmi _ => .bmi
  | .bvc _ => .bvc
  | .bvs _ => .bvs
  | .bcc _ => .bcc
  | .bcs _ => .bcs
  | .bne _ => .bne
  | .beq _ => .beq
  | .pha => .pha
  | .pla => .pla
  | .php => .php
  | .plp => .plp
  | .jmpAbs _ | .jmpInd _ => .jmp
  | .jsr _ => .jsr
  | .rts => .rts
  | .rti => .rti
  | .clc => .clc
  | .sec => .sec
  | .cli => .cli
  | .sei => .sei
  | .clv => .clv
  | .cld => .cld
  | .sed => .sed
  | .nop => .nop
  | .brk => .brk

/-- The operand of an instruction: its row's "format" with the operand bytes. -/
def Instr.operand : Instr → Operand
  | .oraImm v => .imm v
  | .oraZp zp => .zp zp
  | .oraZpx zp => .zpx zp
  | .oraAbs w => .abs w
  | .oraAbx w => .abx w
  | .oraAby w => .aby w
  | .oraIzx zp => .izx zp
  | .oraIzy zp => .izy zp
  | .andImm v => .imm v
  | .andZp zp => .zp zp
  | .andZpx zp => .zpx zp
  | .andAbs w => .abs w
  | .andAbx w => .abx w
  | .andAby w => .aby w
  | .andIzx zp => .izx zp
  | .andIzy zp => .izy zp
  | .eorImm v => .imm v
  | .eorZp zp => .zp zp
  | .eorZpx zp => .zpx zp
  | .eorAbs w => .abs w
  | .eorAbx w => .abx w
  | .eorAby w => .aby w
  | .eorIzx zp => .izx zp
  | .eorIzy zp => .izy zp
  | .bitZp zp => .zp zp
  | .bitAbs w => .abs w
  | .adcImm v => .imm v
  | .adcZp zp => .zp zp
  | .adcZpx zp => .zpx zp
  | .adcAbs w => .abs w
  | .adcAbx w => .abx w
  | .adcAby w => .aby w
  | .adcIzx zp => .izx zp
  | .adcIzy zp => .izy zp
  | .sbcImm v => .imm v
  | .sbcZp zp => .zp zp
  | .sbcZpx zp => .zpx zp
  | .sbcAbs w => .abs w
  | .sbcAbx w => .abx w
  | .sbcAby w => .aby w
  | .sbcIzx zp => .izx zp
  | .sbcIzy zp => .izy zp
  | .cmpImm v => .imm v
  | .cmpZp zp => .zp zp
  | .cmpZpx zp => .zpx zp
  | .cmpAbs w => .abs w
  | .cmpAbx w => .abx w
  | .cmpAby w => .aby w
  | .cmpIzx zp => .izx zp
  | .cmpIzy zp => .izy zp
  | .cpxImm v => .imm v
  | .cpxZp zp => .zp zp
  | .cpxAbs w => .abs w
  | .cpyImm v => .imm v
  | .cpyZp zp => .zp zp
  | .cpyAbs w => .abs w
  | .aslAcc => .acc
  | .aslZp zp => .zp zp
  | .aslZpx zp => .zpx zp
  | .aslAbs w => .abs w
  | .aslAbx w => .abx w
  | .lsrAcc => .acc
  | .lsrZp zp => .zp zp
  | .lsrZpx zp => .zpx zp
  | .lsrAbs w => .abs w
  | .lsrAbx w => .abx w
  | .rolAcc => .acc
  | .rolZp zp => .zp zp
  | .rolZpx zp => .zpx zp
  | .rolAbs w => .abs w
  | .rolAbx w => .abx w
  | .rorAcc => .acc
  | .rorZp zp => .zp zp
  | .rorZpx zp => .zpx zp
  | .rorAbs w => .abs w
  | .rorAbx w => .abx w
  | .incZp zp => .zp zp
  | .incZpx zp => .zpx zp
  | .incAbs w => .abs w
  | .incAbx w => .abx w
  | .decZp zp => .zp zp
  | .decZpx zp => .zpx zp
  | .decAbs w => .abs w
  | .decAbx w => .abx w
  | .inx => .imp
  | .dex => .imp
  | .iny => .imp
  | .dey => .imp
  | .ldaImm v => .imm v
  | .ldaZp zp => .zp zp
  | .ldaZpx zp => .zpx zp
  | .ldaAbs w => .abs w
  | .ldaAbx w => .abx w
  | .ldaAby w => .aby w
  | .ldaIzx zp => .izx zp
  | .ldaIzy zp => .izy zp
  | .ldxImm v => .imm v
  | .ldxZp zp => .zp zp
  | .ldxZpy zp => .zpy zp
  | .ldxAbs w => .abs w
  | .ldxAby w => .aby w
  | .ldyImm v => .imm v
  | .ldyZp zp => .zp zp
  | .ldyZpx zp => .zpx zp
  | .ldyAbs w => .abs w
  | .ldyAbx w => .abx w
  | .staZp zp => .zp zp
  | .staZpx zp => .zpx zp
  | .staAbs w => .abs w
  | .staAbx w => .abx w
  | .staAby w => .aby w
  | .staIzx zp => .izx zp
  | .staIzy zp => .izy zp
  | .stxZp zp => .zp zp
  | .stxZpy zp => .zpy zp
  | .stxAbs w => .abs w
  | .styZp zp => .zp zp
  | .styZpx zp => .zpx zp
  | .styAbs w => .abs w
  | .tax => .imp
  | .txa => .imp
  | .tay => .imp
  | .tya => .imp
  | .tsx => .imp
  | .txs => .imp
  | .bpl off => .rel off
  | .bmi off => .rel off
  | .bvc off => .rel off
  | .bvs off => .rel off
  | .bcc off => .rel off
  | .bcs off => .rel off
  | .bne off => .rel off
  | .beq off => .rel off
  | .pha => .imp
  | .pla => .imp
  | .php => .imp
  | .plp => .imp
  | .jmpAbs w => .abs w
  | .jmpInd p => .ind p
  | .jsr w => .abs w
  | .rts => .imp
  | .rti => .imp
  | .clc => .imp
  | .sec => .imp
  | .cli => .imp
  | .sei => .imp
  | .clv => .imp
  | .cld => .imp
  | .sed => .imp
  | .nop => .imp
  | .brk => .imp

end Sys2Proof
end

