-- ==== Sys2Proof/WellFormed.lean ====
section
/-! DEFINITION. Which instructions the opcode table of a configuration holds. The operand bytes of every form may take
every value (30_encoding.md R72) and no form outside the table can be written down, so the one check is the gate of
the extension set (30_encoding.md R77, 49_ext_official.md R220). -/

namespace Sys2Proof

/-- The eight official instructions the document does not name (R77). -/
def Mnemonic.isExtension : Mnemonic → Bool
  | .sbc | .bne | .beq | .tsx | .txs | .cld | .sed | .nop => true
  | .ora | .and | .eor | .bit | .adc | .cmp | .cpx | .cpy | .asl | .lsr | .rol | .ror | .inc | .dec | .inx | .dex | .iny | .dey | .lda | .ldx | .ldy | .sta | .stx | .sty | .tax | .txa | .tay | .tya
  | .bpl | .bmi | .bvc | .bvs | .bcc | .bcs | .pha | .pla | .php | .plp | .jmp | .jsr | .rts | .rti | .clc | .sec | .cli | .sei | .clv | .brk => false

/-- Whether an instruction belongs to the extension set. -/
def Instr.isExtension (i : Instr) : Bool := i.mnemonic.isExtension

/-- An instruction is well formed under a setting of `EXT_OFFICIAL` when the table of that setting has an entry for it:
an extension instruction needs the gate open (R220). -/
def Instr.wellFormed (ext : Bool) (i : Instr) : Bool := ext || !i.isExtension

end Sys2Proof
end

