-- ==== Sys2Proof/Decode.lean ====
section
/-! DEFINITION. The decoder, a lookup of the whole opcode byte in the 256-entry table of 30_encoding.md R74, total on any
bytes and rejecting by name; then the encoder, written from the table by mnemonic of R75. The byte values of both tables
are the spec's general knowledge (G1, D2; log 7). -/

namespace Sys2Proof

/-- The length in bytes of an instruction of a format (R71). -/
def Format.len : Format → Nat
  | .imp | .acc => 1
  | .imm | .zp | .zpx | .zpy | .izx | .izy | .rel => 2
  | .abs | .abx | .aby | .ind => 3

/-- The length in bytes of an instruction with this operand. -/
def Operand.len (o : Operand) : Nat := o.format.len

/-- The length of an instruction in bytes, its row's "len" (R71, R79). -/
def Instr.len (i : Instr) : Nat := i.operand.len

/-- The word whose high and low bytes are given: `h:l` of 00_scope.md R6; little-endian operands are `b2:b1` (R72). -/
def joinBytes (lo hi : Byte) : Addr := hi ++ lo

/-- Bits 7 to 0 of a word. -/
def lowByte (w : Addr) : Byte := w.setWidth 8

/-- Bits 15 to 8 of a word. -/
def highByte (w : Addr) : Byte := (w >>> 8).setWidth 8

/-- An entry of the opcode table (R73): illegal, or an instruction waiting for as many operand bytes as its length says. -/
inductive Entry where
  /-- No instruction (R76). -/
  | illegal
  /-- A one-byte instruction. -/
  | one (i : Instr)
  /-- A two-byte instruction, from its operand byte. -/
  | two (f : Byte → Instr)
  /-- A three-byte instruction, from its assembled 16-bit operand. -/
  | three (f : Addr → Instr)

/-- R74, row 0x0x. -/
def tableRow0 : List Entry := [
  .one .brk, .two .oraIzx, .illegal, .illegal, .illegal, .two .oraZp, .two .aslZp, .illegal,
  .one .php, .two .oraImm, .one .aslAcc, .illegal, .illegal, .three .oraAbs, .three .aslAbs, .illegal]

/-- R74, row 0x1x. -/
def tableRow1 : List Entry := [
  .two .bpl, .two .oraIzy, .illegal, .illegal, .illegal, .two .oraZpx, .two .aslZpx, .illegal,
  .one .clc, .three .oraAby, .illegal, .illegal, .illegal, .three .oraAbx, .three .aslAbx, .illegal]

/-- R74, row 0x2x. -/
def tableRow2 : List Entry := [
  .three .jsr, .two .andIzx, .illegal, .illegal, .two .bitZp, .two .andZp, .two .rolZp, .illegal,
  .one .plp, .two .andImm, .one .rolAcc, .illegal, .three .bitAbs, .three .andAbs, .three .rolAbs, .illegal]

/-- R74, row 0x3x. -/
def tableRow3 : List Entry := [
  .two .bmi, .two .andIzy, .illegal, .illegal, .illegal, .two .andZpx, .two .rolZpx, .illegal,
  .one .sec, .three .andAby, .illegal, .illegal, .illegal, .three .andAbx, .three .rolAbx, .illegal]

/-- R74, row 0x4x. -/
def tableRow4 : List Entry := [
  .one .rti, .two .eorIzx, .illegal, .illegal, .illegal, .two .eorZp, .two .lsrZp, .illegal,
  .one .pha, .two .eorImm, .one .lsrAcc, .illegal, .three .jmpAbs, .three .eorAbs, .three .lsrAbs, .illegal]

/-- R74, row 0x5x. -/
def tableRow5 : List Entry := [
  .two .bvc, .two .eorIzy, .illegal, .illegal, .illegal, .two .eorZpx, .two .lsrZpx, .illegal,
  .one .cli, .three .eorAby, .illegal, .illegal, .illegal, .three .eorAbx, .three .lsrAbx, .illegal]

/-- R74, row 0x6x. -/
def tableRow6 : List Entry := [
  .one .rts, .two .adcIzx, .illegal, .illegal, .illegal, .two .adcZp, .two .rorZp, .illegal,
  .one .pla, .two .adcImm, .one .rorAcc, .illegal, .three .jmpInd, .three .adcAbs, .three .rorAbs, .illegal]

/-- R74, row 0x7x. -/
def tableRow7 : List Entry := [
  .two .bvs, .two .adcIzy, .illegal, .illegal, .illegal, .two .adcZpx, .two .rorZpx, .illegal,
  .one .sei, .three .adcAby, .illegal, .illegal, .illegal, .three .adcAbx, .three .rorAbx, .illegal]

/-- R74, row 0x8x. -/
def tableRow8 : List Entry := [
  .illegal, .two .staIzx, .illegal, .illegal, .two .styZp, .two .staZp, .two .stxZp, .illegal,
  .one .dey, .illegal, .one .txa, .illegal, .three .styAbs, .three .staAbs, .three .stxAbs, .illegal]

/-- R74, row 0x9x. -/
def tableRow9 : List Entry := [
  .two .bcc, .two .staIzy, .illegal, .illegal, .two .styZpx, .two .staZpx, .two .stxZpy, .illegal,
  .one .tya, .three .staAby, .one .txs, .illegal, .illegal, .three .staAbx, .illegal, .illegal]

/-- R74, row 0xAx. -/
def tableRowA : List Entry := [
  .two .ldyImm, .two .ldaIzx, .two .ldxImm, .illegal, .two .ldyZp, .two .ldaZp, .two .ldxZp, .illegal,
  .one .tay, .two .ldaImm, .one .tax, .illegal, .three .ldyAbs, .three .ldaAbs, .three .ldxAbs, .illegal]

/-- R74, row 0xBx. -/
def tableRowB : List Entry := [
  .two .bcs, .two .ldaIzy, .illegal, .illegal, .two .ldyZpx, .two .ldaZpx, .two .ldxZpy, .illegal,
  .one .clv, .three .ldaAby, .one .tsx, .illegal, .three .ldyAbx, .three .ldaAbx, .three .ldxAby, .illegal]

/-- R74, row 0xCx. -/
def tableRowC : List Entry := [
  .two .cpyImm, .two .cmpIzx, .illegal, .illegal, .two .cpyZp, .two .cmpZp, .two .decZp, .illegal,
  .one .iny, .two .cmpImm, .one .dex, .illegal, .three .cpyAbs, .three .cmpAbs, .three .decAbs, .illegal]

/-- R74, row 0xDx. -/
def tableRowD : List Entry := [
  .two .bne, .two .cmpIzy, .illegal, .illegal, .illegal, .two .cmpZpx, .two .decZpx, .illegal,
  .one .cld, .three .cmpAby, .illegal, .illegal, .illegal, .three .cmpAbx, .three .decAbx, .illegal]

/-- R74, row 0xEx. -/
def tableRowE : List Entry := [
  .two .cpxImm, .two .sbcIzx, .illegal, .illegal, .two .cpxZp, .two .sbcZp, .two .incZp, .illegal,
  .one .inx, .two .sbcImm, .one .nop, .illegal, .three .cpxAbs, .three .sbcAbs, .three .incAbs, .illegal]

/-- R74, row 0xFx. -/
def tableRowF : List Entry := [
  .two .beq, .two .sbcIzy, .illegal, .illegal, .illegal, .two .sbcZpx, .two .incZpx, .illegal,
  .one .sed, .three .sbcAby, .illegal, .illegal, .illegal, .three .sbcAbx, .three .incAbx, .illegal]

/-- The table of R74, high nibble of the opcode down. -/
def tableRows : List (List Entry) :=
  [tableRow0, tableRow1, tableRow2, tableRow3, tableRow4, tableRow5, tableRow6, tableRow7,
   tableRow8, tableRow9, tableRowA, tableRowB, tableRowC, tableRowD, tableRowE, tableRowF]

/-- The entry of an opcode byte in the complete table, extension entries included. -/
def fullEntry (op : Byte) : Entry := (tableRows.getD (op.toNat / 16) []).getD (op.toNat % 16) .illegal

/-- The 15 opcode bytes of the extension set (R77). -/
def extensionOpcodes : List Byte :=
  [0x9A#8, 0xBA#8, 0xD0#8, 0xD8#8, 0xE1#8, 0xE5#8, 0xE9#8, 0xEA#8, 0xED#8, 0xF0#8, 0xF1#8, 0xF5#8, 0xF8#8, 0xF9#8, 0xFD#8]

/-- Whether an opcode byte belongs to the extension set. -/
def isExtensionOpcode (op : Byte) : Bool := extensionOpcodes.contains op

/-- `Table[op]` under a setting of `EXT_OFFICIAL`: with the gate closed the extension entries are illegal (R77, R220). -/
def tableEntry (ext : Bool) (op : Byte) : Entry :=
  if isExtensionOpcode op && !ext then .illegal else fullEntry op

/-- Why bytes do not decode. -/
inductive DecodeError where
  /-- The first byte has no entry in the table (R76, R77). -/
  | illegalOpcode (op : Byte)
  /-- Fewer bytes than the entry's length. -/
  | truncated
  deriving DecidableEq, Repr

/-- Reads one instruction from the front of a list of bytes and returns it with the bytes after it. The opcode byte alone
decides the instruction, the mode and the length (R70, R79). -/
def decode (ext : Bool) : List Byte → Except DecodeError (Instr × List Byte)
  | [] => .error .truncated
  | op :: rest =>
    match tableEntry ext op, rest with
    | .illegal, _ => .error (.illegalOpcode op)
    | .one i, _ => .ok (i, rest)
    | .two f, b1 :: after => .ok (f b1, after)
    | .three f, b1 :: b2 :: after => .ok (f (joinBytes b1 b2), after)
    | .two _, [] => .error .truncated
    | .three _, [] => .error .truncated
    | .three _, [_] => .error .truncated

/-- The opcode byte of an instruction, from the table by mnemonic (R75). -/
def Instr.opcode : Instr → Byte
  | .oraImm _ => 0x09#8
  | .oraZp _ => 0x05#8
  | .oraZpx _ => 0x15#8
  | .oraAbs _ => 0x0D#8
  | .oraAbx _ => 0x1D#8
  | .oraAby _ => 0x19#8
  | .oraIzx _ => 0x01#8
  | .oraIzy _ => 0x11#8
  | .andImm _ => 0x29#8
  | .andZp _ => 0x25#8
  | .andZpx _ => 0x35#8
  | .andAbs _ => 0x2D#8
  | .andAbx _ => 0x3D#8
  | .andAby _ => 0x39#8
  | .andIzx _ => 0x21#8
  | .andIzy _ => 0x31#8
  | .eorImm _ => 0x49#8
  | .eorZp _ => 0x45#8
  | .eorZpx _ => 0x55#8
  | .eorAbs _ => 0x4D#8
  | .eorAbx _ => 0x5D#8
  | .eorAby _ => 0x59#8
  | .eorIzx _ => 0x41#8
  | .eorIzy _ => 0x51#8
  | .bitZp _ => 0x24#8
  | .bitAbs _ => 0x2C#8
  | .adcImm _ => 0x69#8
  | .adcZp _ => 0x65#8
  | .adcZpx _ => 0x75#8
  | .adcAbs _ => 0x6D#8
  | .adcAbx _ => 0x7D#8
  | .adcAby _ => 0x79#8
  | .adcIzx _ => 0x61#8
  | .adcIzy _ => 0x71#8
  | .sbcImm _ => 0xE9#8
  | .sbcZp _ => 0xE5#8
  | .sbcZpx _ => 0xF5#8
  | .sbcAbs _ => 0xED#8
  | .sbcAbx _ => 0xFD#8
  | .sbcAby _ => 0xF9#8
  | .sbcIzx _ => 0xE1#8
  | .sbcIzy _ => 0xF1#8
  | .cmpImm _ => 0xC9#8
  | .cmpZp _ => 0xC5#8
  | .cmpZpx _ => 0xD5#8
  | .cmpAbs _ => 0xCD#8
  | .cmpAbx _ => 0xDD#8
  | .cmpAby _ => 0xD9#8
  | .cmpIzx _ => 0xC1#8
  | .cmpIzy _ => 0xD1#8
  | .cpxImm _ => 0xE0#8
  | .cpxZp _ => 0xE4#8
  | .cpxAbs _ => 0xEC#8
  | .cpyImm _ => 0xC0#8
  | .cpyZp _ => 0xC4#8
  | .cpyAbs _ => 0xCC#8
  | .aslAcc => 0x0A#8
  | .aslZp _ => 0x06#8
  | .aslZpx _ => 0x16#8
  | .aslAbs _ => 0x0E#8
  | .aslAbx _ => 0x1E#8
  | .lsrAcc => 0x4A#8
  | .lsrZp _ => 0x46#8
  | .lsrZpx _ => 0x56#8
  | .lsrAbs _ => 0x4E#8
  | .lsrAbx _ => 0x5E#8
  | .rolAcc => 0x2A#8
  | .rolZp _ => 0x26#8
  | .rolZpx _ => 0x36#8
  | .rolAbs _ => 0x2E#8
  | .rolAbx _ => 0x3E#8
  | .rorAcc => 0x6A#8
  | .rorZp _ => 0x66#8
  | .rorZpx _ => 0x76#8
  | .rorAbs _ => 0x6E#8
  | .rorAbx _ => 0x7E#8
  | .incZp _ => 0xE6#8
  | .incZpx _ => 0xF6#8
  | .incAbs _ => 0xEE#8
  | .incAbx _ => 0xFE#8
  | .decZp _ => 0xC6#8
  | .decZpx _ => 0xD6#8
  | .decAbs _ => 0xCE#8
  | .decAbx _ => 0xDE#8
  | .inx => 0xE8#8
  | .dex => 0xCA#8
  | .iny => 0xC8#8
  | .dey => 0x88#8
  | .ldaImm _ => 0xA9#8
  | .ldaZp _ => 0xA5#8
  | .ldaZpx _ => 0xB5#8
  | .ldaAbs _ => 0xAD#8
  | .ldaAbx _ => 0xBD#8
  | .ldaAby _ => 0xB9#8
  | .ldaIzx _ => 0xA1#8
  | .ldaIzy _ => 0xB1#8
  | .ldxImm _ => 0xA2#8
  | .ldxZp _ => 0xA6#8
  | .ldxZpy _ => 0xB6#8
  | .ldxAbs _ => 0xAE#8
  | .ldxAby _ => 0xBE#8
  | .ldyImm _ => 0xA0#8
  | .ldyZp _ => 0xA4#8
  | .ldyZpx _ => 0xB4#8
  | .ldyAbs _ => 0xAC#8
  | .ldyAbx _ => 0xBC#8
  | .staZp _ => 0x85#8
  | .staZpx _ => 0x95#8
  | .staAbs _ => 0x8D#8
  | .staAbx _ => 0x9D#8
  | .staAby _ => 0x99#8
  | .staIzx _ => 0x81#8
  | .staIzy _ => 0x91#8
  | .stxZp _ => 0x86#8
  | .stxZpy _ => 0x96#8
  | .stxAbs _ => 0x8E#8
  | .styZp _ => 0x84#8
  | .styZpx _ => 0x94#8
  | .styAbs _ => 0x8C#8
  | .tax => 0xAA#8
  | .txa => 0x8A#8
  | .tay => 0xA8#8
  | .tya => 0x98#8
  | .tsx => 0xBA#8
  | .txs => 0x9A#8
  | .bpl _ => 0x10#8
  | .bmi _ => 0x30#8
  | .bvc _ => 0x50#8
  | .bvs _ => 0x70#8
  | .bcc _ => 0x90#8
  | .bcs _ => 0xB0#8
  | .bne _ => 0xD0#8
  | .beq _ => 0xF0#8
  | .pha => 0x48#8
  | .pla => 0x68#8
  | .php => 0x08#8
  | .plp => 0x28#8
  | .jmpAbs _ => 0x4C#8
  | .jmpInd _ => 0x6C#8
  | .jsr _ => 0x20#8
  | .rts => 0x60#8
  | .rti => 0x40#8
  | .clc => 0x18#8
  | .sec => 0x38#8
  | .cli => 0x58#8
  | .sei => 0x78#8
  | .clv => 0xB8#8
  | .cld => 0xD8#8
  | .sed => 0xF8#8
  | .nop => 0xEA#8
  | .brk => 0x00#8

/-- The operand bytes of an operand, low byte first (R70, R72). -/
def Operand.bytes : Operand → List Byte
  | .imp | .acc => []
  | .imm v => [v]
  | .zp b | .zpx b | .zpy b | .izx b | .izy b => [b]
  | .rel off => [off]
  | .abs w | .abx w | .aby w => [lowByte w, highByte w]
  | .ind p => [lowByte p, highByte p]

/-- The bytes of an instruction: the opcode, then the operand bytes at ascending addresses (R70). -/
def encode (i : Instr) : List Byte := i.opcode :: i.operand.bytes

/-- The instruction's bytes from a number whose bit 0 is the least significant bit of the first byte; the bits from
`nbits` up are 0. -/
def wordBytes (nbits w : Nat) : List Byte :=
  [BitVec.ofNat 8 (w % 2 ^ nbits), BitVec.ofNat 8 (w % 2 ^ nbits / 2 ^ 8), BitVec.ofNat 8 (w % 2 ^ nbits / 2 ^ 16)]

/-- The instruction the decoder of the complete table (`EXT_OFFICIAL` true) reads from such a number. -/
def decodeTableWord (nbits w : Nat) : Option Instr :=
  match decode true (wordBytes nbits w) with
  | .ok (i, _) => some i
  | .error _ => none

end Sys2Proof
end

