-- ==== Sys2Proof/Config.lean ====
section
/-! DEFINITION. The parameters of 00_scope.md R5 that are constant for a run, and the constants of the machine. -/

namespace Sys2Proof

/-- The parameters a run is made under (00_scope.md R5). `State` carries them and no step changes them (log 24). -/
structure Config where
  /-- `EXT_OFFICIAL`: whether the 15 opcode bytes of the extension set decode (49_ext_official.md R220). -/
  extOfficial : Bool
  /-- `STACK_PAGE`: five bits, because the page must lie in 0x0000 - 0x1FFF (20_memory.md R52) (log 5). -/
  stackPage : BitVec 5
  /-- `COLLABORATORS`: whether host moves occur between steps after launch (20_memory.md R58). -/
  collaborators : Bool
  deriving DecidableEq, Repr

/-- The values R5 takes: the extension closed, the stack in page 0x01, a closed system. -/
def Config.standard : Config :=
  { extOfficial := false, stackPage := 0x01#5, collaborators := false }

/-- `SP_RESET`, the top value of the stack pointer (10_state.md R33, decision D4; log 4). -/
def Config.spReset : Byte := 0xFF#8

/-- `PC_RESET` is OPEN (R33, D5). DESIGN CHOICE: the cartridge base, where `loadProgram` puts a program's first byte
(70_reset_and_hazards.md R271). Unsafe (log 1). -/
def Config.pcReset : Addr := 0x4020#16

/-- `CART_BASE` (R5). -/
def Config.cartBase : Nat := 0x4020

/-- `CART_SIZE` (R5, 20_memory.md R41). -/
def Config.cartSize : Nat := 0xBFE0

/-- What a storage cell that nothing has written reads as. `INIT_MEM` is OPEN (R64, D7). DESIGN CHOICE: 0x00, the one
value of every unlisted cell; a claim over all states still covers every memory contents. Unsafe (log 3). -/
def Config.unwrittenByte : Byte := 0x00#8

end Sys2Proof
end

