-- ==== Sys2Proof/Machine/State.lean ====
section
/-! DEFINITION. The state of the machine (10_state.md R20, R29, R30; 20_memory.md R41), the reasons a step can stop, and the
power-on state (10_state.md R33, 70_reset_and_hazards.md R270). -/

namespace Sys2Proof.Machine

/-- The seven flags of the register file (R23), by the spec's symbols. -/
structure Flags where
  /-- Carry. -/
  c : Bool
  /-- Zero. -/
  z : Bool
  /-- InterruptDisable; masks nothing in this core (60_exceptions.md R249). -/
  i : Bool
  /-- DecimalMode, stored but never affecting arithmetic. -/
  d : Bool
  /-- Break; no instruction reads or writes it (R28). -/
  b : Bool
  /-- Overflow. -/
  v : Bool
  /-- Negative. -/
  n : Bool
  deriving DecidableEq, Repr

/-- The fault kinds a step can leave in the fault latch (R29). -/
inductive FaultKind where
  | restrictedRegion | illegalOpcode | notImplemented
  deriving DecidableEq, Repr

/-- The storage cells that hold something else than an unwritten cell: (cell, byte) pairs. A cell is named by the lowest
address that routes to it (log 11). Canonical form: `Memory.wf` of Ops.lean. -/
abbrev Memory := List Host.Cell

/-- The register file (R20), the address space (20_memory.md R41), the fault latch (R29) and the parameters of the run
(00_scope.md R5). No other state is held between steps (R30). -/
structure State where
  /-- Accumulator `A`. -/
  a : Byte
  /-- Index `X`. -/
  x : Byte
  /-- Index `Y`. -/
  y : Byte
  /-- Stack pointer `SP`, the offset within the stack page (R22). -/
  sp : Byte
  /-- Program counter; between steps the address of the next instruction's opcode byte (R21). -/
  pc : Addr
  /-- The flags `C Z I D B V N`. -/
  flags : Flags
  /-- RAM, both peripheral blocks and the cartridge bytes. -/
  mem : Memory
  /-- The fault latch: `none`, or the kind that halted the machine (R29, 60_exceptions.md R248). -/
  latch : Option FaultKind
  /-- The parameters of the run. -/
  cfg : Config
  deriving DecidableEq, Repr

/-- The four fault kinds (60_exceptions.md R240), with the spec's own payloads (D29; log 23). A faulting step writes
nothing (R246). All are safe: the spec says these conditions must fail. -/
inductive Fault where
  /-- An access to 0x4018 - 0x401F, raised by `memRead` and `memWrite` for every caller (R241). Safe. -/
  | restrictedRegion (addr : Addr)
  /-- An opcode byte with no table entry, raised by `fetchInstr` at decode (R242). Safe. -/
  | illegalOpcode (op : Byte)
  /-- BRK, raised by `execBrk` (R243, 48_flags_break.md R215). Safe. -/
  | notImplemented
  /-- More than 0xBFE0 bytes given to the host operation `loadProgram` (R244); never raised by a step. Safe. -/
  | programTooLarge
  deriving DecidableEq, Repr

/-- Refusals: where the model has no transition. No instruction's meaning ends in one. -/
inductive Refusal where
  /-- An instruction without a meaning yet, raised by `exec`'s arms; no arm does. Safe. -/
  | notModelled (mnemonic : String)
  /-- A halted machine has no further step (60_exceptions.md R248), raised by `step` when the latch holds a kind. Safe (log 9). -/
  | halted (kind : FaultKind)
  /-- A descriptor that 40_step_and_addressing.md R108 never loads from, stores to or jumps to, raised by the operand
  functions; the table pairs no instruction with one (log 26). Safe. -/
  | operandForm
  /-- A host move after launch in a closed system, `COLLABORATORS` = false (20_memory.md R58), raised by `runMove`. Safe. -/
  | closedSystem
  /-- A collaborator write outside the peripheral slots (R58), raised by `runMove`. Safe (log 12). -/
  | outsideSlots
  deriving DecidableEq, Repr

/-- What running an instruction, or a part of one, answers. -/
abbrev Result := Host.Outcome State Fault Refusal

/-- The launch state: what the spec leaves OPEN at power-on (00_scope.md R5), and the parameters of the run. -/
structure Launch where
  /-- `PC_RESET`. -/
  pc : Addr
  /-- `INIT_A`. -/
  a : Byte
  /-- `INIT_X`. -/
  x : Byte
  /-- `INIT_Y`. -/
  y : Byte
  /-- `INIT_FLAGS`. -/
  flags : Flags
  /-- `INIT_MEM`. -/
  mem : Memory
  /-- `EXT_OFFICIAL`, `STACK_PAGE`, `COLLABORATORS`. -/
  cfg : Config
  deriving DecidableEq, Repr

/-- Power-on (R33, 70_reset_and_hazards.md R270): `SP` at its top value, no fault, the rest as the launch state says. -/
def State.launch (l : Launch) : State :=
  { a := l.a, x := l.x, y := l.y, sp := Config.spReset, pc := l.pc, flags := l.flags, mem := l.mem, latch := none,
    cfg := l.cfg }

/-- One launch state: `pc` at the cartridge base (log 1), the data registers 0 and the flags false (log 2), memory with
nothing listed (log 3). DESIGN CHOICE, unsafe: the spec states no value for any of these. -/
def Launch.standard : Launch :=
  { pc := Config.pcReset, a := 0x00#8, x := 0x00#8, y := 0x00#8,
    flags := { c := false, z := false, i := false, d := false, b := false, v := false, n := false },
    mem := [], cfg := Config.standard }

/-- The machine right after power-on, in the standard launch state. -/
def State.reset : State := State.launch Launch.standard

end Sys2Proof.Machine
end

