-- ==== Sys2Proof/Machine/Ops.lean ====
section
/-! DEFINITION. The shared operations: sequencing of outcomes, the record updates, the region map and the two memory
operations (20_memory.md R41 - R45), the stack primitives (R52 - R54), the program-counter commit
(40_step_and_addressing.md R109), and the halt that a fault causes (60_exceptions.md R248). This hardware takes no
exception: a fault pushes nothing, redirects nothing and runs no handler (R245), so its whole delivery is the outcome
`.fault` and the latch. -/

namespace Sys2Proof.Machine

/-! ### Sequencing -/

/-- Goes on with a value, or stops with the fault or the refusal met. -/
def andThen {α β : Type} (o : Host.Outcome α Fault Refusal) (f : α → Host.Outcome β Fault Refusal) :
    Host.Outcome β Fault Refusal :=
  match o with
  | .next x => f x
  | .fault r => .fault r
  | .refused r => .refused r

/-! ### Updates, one per field -/

/-- `x[A] <- v`. -/
def State.withA (v : Byte) (s : State) : State := { s with a := v }
/-- `x[X] <- v`. -/
def State.withX (v : Byte) (s : State) : State := { s with x := v }
/-- `x[Y] <- v`. -/
def State.withY (v : Byte) (s : State) : State := { s with y := v }
/-- `x[SP] <- v`. -/
def State.withSP (v : Byte) (s : State) : State := { s with sp := v }
/-- `pc <- t`. -/
def State.withPC (t : Addr) (s : State) : State := { s with pc := t }
/-- The flags replaced. -/
def State.withFlags (f : Flags) (s : State) : State := { s with flags := f }
/-- The storage replaced. -/
def State.withMem (m : Memory) (s : State) : State := { s with mem := m }
/-- The fault latch replaced. -/
def State.withLatch (k : Option FaultKind) (s : State) : State := { s with latch := k }
/-- The parameters replaced (host only). -/
def State.withCfg (c : Config) (s : State) : State := { s with cfg := c }

/-! ### The region map -/

/-- The regions of R41, each with the index of the byte within its storage. -/
inductive Region where
  | ram (i : Nat)
  | preg (i : Nat)
  | preg2 (i : Nat)
  | forbidden
  | cart (i : Nat)
  deriving DecidableEq, Repr

/-- `Route`, total on 16-bit addresses (R42). -/
def route (addr : Addr) : Region :=
  if addr.toNat ≤ 0x1FFF then .ram (addr.toNat % 0x0800)
  else if addr.toNat ≤ 0x3FFF then .preg (addr.toNat % 8)
  else if addr.toNat ≤ 0x4017 then .preg2 (addr.toNat - 0x4000)
  else if addr.toNat ≤ 0x401F then .forbidden
  else .cart (addr.toNat - 0x4020)

/-- The storage cell of a region and index, named by the lowest address that routes to it; the forbidden region has
none (R41) (log 11). -/
def Region.cell : Region → Option Nat
  | .ram i => some i
  | .preg i => some (0x2000 + i)
  | .preg2 i => some (0x4000 + i)
  | .forbidden => none
  | .cart i => some (Config.cartBase + i)

/-- The storage cell an address routes to. -/
def cellOf (addr : Addr) : Option Nat := (route addr).cell

/-- Whether an address lies in the forbidden region 0x4018 - 0x401F (R45). -/
def forbidden (addr : Addr) : Bool := route addr == .forbidden

/-- Whether a number names a storage cell: 2,048 of RAM, 8 and 24 peripheral slots, 49,120 of the cartridge (R41). -/
def isCell (k : Nat) : Bool :=
  decide (k < 0x0800) || (decide (0x2000 ≤ k) && decide (k < 0x2008)) || (decide (0x4000 ≤ k) && decide (k < 0x4018)) ||
    (decide (0x4020 ≤ k) && decide (k < 0x10000))

/-! ### Storage -/

/-- The byte a cell holds. -/
def Memory.read : Memory → Nat → Byte
  | [], _ => Config.unwrittenByte
  | (k, v) :: m, a => if k = a then v else Memory.read m a

/-- Stores a byte in a cell and keeps the list canonical: a cell that comes to hold what an unlisted cell reads as is
not listed. -/
def Memory.write : Memory → Nat → Byte → Memory
  | [], a, b => if b = Config.unwrittenByte then [] else [(a, b)]
  | (k, v) :: m, a, b =>
    if k < a then (k, v) :: Memory.write m a b
    else if k = a then (if b = Config.unwrittenByte then m else (a, b) :: m)
    else if b = Config.unwrittenByte then (k, v) :: m
    else (a, b) :: (k, v) :: m

/-- Canonical form from a cell upwards: the cells exist, rise strictly, and none holds the unwritten byte. -/
def Memory.wfFrom : Nat → Memory → Bool
  | _, [] => true
  | lo, (k, v) :: m => decide (lo ≤ k) && isCell k && v != Config.unwrittenByte && Memory.wfFrom (k + 1) m

/-- The canonical form of the storage. -/
def Memory.wf (m : Memory) : Bool := Memory.wfFrom 0 m

/-! ### The two memory operations -/

/-- `MemRead(addr, 1)` (R43, R45): the byte of the cell the address routes to; a read changes nothing. -/
def memRead (addr : Addr) (s : State) : Host.Outcome Byte Fault Refusal :=
  match cellOf addr with
  | none => .fault (.restrictedRegion addr)
  | some k => .next (s.mem.read k)

/-- `MemWrite(addr, 1, v)` (R44, R45): the cell becomes `v`, in every one of the four regions, and nothing else changes. -/
def memWrite (addr : Addr) (v : Byte) (s : State) : Result :=
  match cellOf addr with
  | none => .fault (.restrictedRegion addr)
  | some k => .next (s.withMem (s.mem.write k v))

/-- A 16-bit quantity from two byte reads, the low byte first (R49). -/
def readPair (lo hi : Addr) (s : State) : Host.Outcome Addr Fault Refusal :=
  andThen (memRead lo s) fun l => andThen (memRead hi s) fun h => .next (joinBytes l h)

/-! ### The stack -/

/-- `StackAddr(p)`, in the page the parameter names, inside RAM (R52). -/
def stackAddr (c : Config) (p : Byte) : Addr := c.stackPage.setWidth 8 ++ p

/-- `Push(v)` (R53): write at the stack pointer, then decrement it mod 256. -/
def push (v : Byte) (s : State) : Result :=
  andThen (memWrite (stackAddr s.cfg s.sp) v s) fun t => .next (t.withSP (t.sp - 1))

/-- `Pop()` (R54): increment the stack pointer mod 256, then read; the byte is not erased. -/
def pop (s : State) : Host.Outcome (Byte × State) Fault Refusal :=
  andThen (memRead (stackAddr s.cfg (s.sp + 1)) (s.withSP (s.sp + 1))) fun v => .next (v, s.withSP (s.sp + 1))

/-- Pushes a word, high byte first, so that it lies little-endian in memory (47_stack_and_control.md R195, D12; log 17). -/
def pushWord (w : Addr) (s : State) : Result :=
  andThen (push (highByte w) s) fun t => push (lowByte w) t

/-- Pops a word, low byte first (R196). -/
def popWord (s : State) : Host.Outcome (Addr × State) Fault Refusal :=
  andThen (pop s) fun lo => andThen (pop lo.2) fun hi => .next (joinBytes lo.1 hi.1, hi.2)

/-! ### Commit and halt -/

/-- The program-counter commit (40_step_and_addressing.md R109): the redirect, or `pc` advanced by the length, mod 65536. -/
def commit (redirect : Option Addr) (len : Nat) (s : State) : State :=
  s.withPC (redirect.getD (s.pc + BitVec.ofNat 16 len))

/-- The kind of a fault that a step can raise; `ProgramTooLarge` is a host operation's and never latched (60 R240, R244). -/
def Fault.kind : Fault → Option FaultKind
  | .restrictedRegion _ => some .restrictedRegion
  | .illegalOpcode _ => some .illegalOpcode
  | .notImplemented => some .notImplemented
  | .programTooLarge => none

/-- What a fault leaves: the state as before the step, with its kind in the latch (R246, R248). -/
def haltWith (f : Fault) (s : State) : State := s.withLatch f.kind

end Sys2Proof.Machine
end

