-- ==== Sys2Proof/Machine/Flags.lean ====
section
/-! DEFINITION. Every flag computation of the spec: `SetZN` (10_state.md R27), the packed status byte (R25, R26), the adder and
the comparison (42_arithmetic.md R130, R132), the four shifts (43_shift_rotate.md R140). -/

namespace Sys2Proof.Machine

/-- `SetZN(r)` (10_state.md R27): Z and N as functions of the final 8-bit result. -/
def Flags.setZN (r : Byte) (f : Flags) : Flags := { f with z := r == 0#8, n := r.msb }

/-- A boolean counted as 1 or 0 (00_scope.md R8). -/
def bitVal (c : Bool) : Nat := if c then 1 else 0

/-- `AddWithCarry(a, m, c)` (R130): result, carry, and the document's overflow, which looks at the sign of `a` and of the
result only. Decimal mode is no input. -/
def addWithCarry (a m : Byte) (c : Bool) : Byte × Bool × Bool :=
  let s := a.toNat + m.toNat + bitVal c
  let r := BitVec.ofNat 8 s
  (r, decide (s > 255), r.msb != a.msb)

/-- The flags after an addition: C and V from the adder, Z and N from the stored sum (R131). -/
def Flags.afterAdd (out : Byte × Bool × Bool) (f : Flags) : Flags :=
  ({ f with c := out.2.1, v := out.2.2 } : Flags).setZN out.1

/-- `Compare(reg, m)` (R132): the wrapped difference, and carry when `m <= reg` unsigned. -/
def compareBytes (reg m : Byte) : Byte × Bool := (reg - m, decide (m.toNat ≤ reg.toNat))

/-- The flags after a comparison: C from `Compare`, Z and N from the unstored difference; V unchanged (R133). -/
def Flags.afterCompare (out : Byte × Bool) (f : Flags) : Flags := ({ f with c := out.2 } : Flags).setZN out.1

/-- `Asl(m)` (R140): shifted byte and the bit shifted out. -/
def asl (m : Byte) : Byte × Bool := (BitVec.ofNat 8 (m.toNat * 2), m.getLsbD 7)

/-- `Lsr(m)` (R140). -/
def lsr (m : Byte) : Byte × Bool := (BitVec.ofNat 8 (m.toNat / 2), m.getLsbD 0)

/-- `Rol(m, c)` (R140): the old Carry enters bit 0. -/
def rol (m : Byte) (c : Bool) : Byte × Bool := (BitVec.ofNat 8 (m.toNat * 2 + bitVal c), m.getLsbD 7)

/-- `Ror(m, c)` (R140): the old Carry enters bit 7. -/
def ror (m : Byte) (c : Bool) : Byte × Bool := (BitVec.ofNat 8 (m.toNat / 2 + 128 * bitVal c), m.getLsbD 0)

/-- The flags after a shift or rotate: C the bit shifted out, Z and N from the result (R141 - R144). LSR's Negative, "forced
false", is bit 7 of its result, which is always clear (R142). -/
def Flags.afterShift (out : Byte × Bool) (f : Flags) : Flags := ({ f with c := out.2 } : Flags).setZN out.1

/-- The flags after BIT (41_logical.md R123): Z from `A & m`, N and V from bits 7 and 6 of the operand. -/
def Flags.afterBit (a m : Byte) (f : Flags) : Flags :=
  { f with z := (a &&& m) == 0#8, n := m.getLsbD 7, v := m.getLsbD 6 }

/-- Who pushes a status byte (10_state.md R25). -/
inductive PushContext where
  | instruction | interrupt
  deriving DecidableEq, Repr

/-- `PackStatus(ctx)` (R25): bit 5 is 1, bit 4 depends on the context alone; the Break flag is no input (conflict C1). -/
def packStatus (ctx : PushContext) (f : Flags) : Byte :=
  BitVec.ofNat 8
    (bitVal f.n * 128 + bitVal f.v * 64 + 1 * 32 + (match ctx with | .instruction => 16 | .interrupt => 0) + bitVal f.d * 8 +
      bitVal f.i * 4 + bitVal f.z * 2 + bitVal f.c * 1)

/-- `UnpackStatus(v)` (R26): six flags from bits 7, 6, 3, 2, 1, 0; bits 5 and 4 are ignored and `B` is unchanged. -/
def unpackStatus (v : Byte) (f : Flags) : Flags :=
  { c := v.getLsbD 0, z := v.getLsbD 1, i := v.getLsbD 2, d := v.getLsbD 3, b := f.b, v := v.getLsbD 6, n := v.getLsbD 7 }

/-- `PushStatus(ctx)` (20_memory.md R55). -/
def pushStatus (ctx : PushContext) (s : State) : Result := push (packStatus ctx s.flags) s

/-- `PopStatus()` (20_memory.md R56). -/
def popStatus (s : State) : Result := andThen (pop s) fun p => .next (p.2.withFlags (unpackStatus p.1 s.flags))

/-- `A <- v; SetZN(A)`. -/
def putA (v : Byte) (s : State) : State := (s.withA v).withFlags (s.flags.setZN v)

/-- `X <- v; SetZN(X)`. -/
def putX (v : Byte) (s : State) : State := (s.withX v).withFlags (s.flags.setZN v)

/-- `Y <- v; SetZN(Y)`. -/
def putY (v : Byte) (s : State) : State := (s.withY v).withFlags (s.flags.setZN v)

end Sys2Proof.Machine
end

