-- ==== Sys2Proof/Machine/Operands.lean ====
section
/-! DEFINITION. The addressing modes (40_step_and_addressing.md R94 - R107), operand access (R108), and the shapes an
instruction has around them: a value read, a value stored, a location modified (R113). -/

namespace Sys2Proof.Machine

/-- What `Resolve` yields (R94). -/
inductive Descriptor where
  | none
  | acc
  | imm (v : Byte)
  | addr (ea : Addr)
  | rel (t : Addr)
  deriving DecidableEq, Repr

/-- A byte zero-extended to an address, `zext_16` (00_scope.md R8): an address of the zero page. -/
def zext16 (b : Byte) : Addr := b.setWidth 16

/-- A byte sign-extended to 16 bits, `sext_16` (R8): offsets of 128 and more are negative. -/
def sext16 (b : Byte) : Addr := b.signExtend 16

/-- The branch target, relative to the address after the two-byte branch, mod 65536 (R107). -/
def relTarget (pc : Addr) (off : Byte) : Addr := pc + 2 + sext16 off

/-- `Resolve(format, b1, b2)` (R94 - R107). Pure; reads `X`, `Y`, `pc`, and memory for the pointers of IND, IZX, IZY. -/
def resolve (o : Operand) (s : State) : Host.Outcome Descriptor Fault Refusal :=
  match o with
  | .imp => .next .none
  | .acc => .next .acc
  | .imm v => .next (.imm v)
  | .zp b => .next (.addr (zext16 b))
  | .zpx b => .next (.addr (zext16 (b + s.x)))
  | .zpy b => .next (.addr (zext16 (b + s.y)))
  | .abs w => .next (.addr w)
  | .abx w => .next (.addr (w + zext16 s.x))
  | .aby w => .next (.addr (w + zext16 s.y))
  | .ind p => andThen (readPair p (p + 1) s) fun ea => .next (.addr ea)
  | .izx b => andThen (readPair (zext16 (b + s.x)) (zext16 (b + s.x + 1)) s) fun ea => .next (.addr ea)
  | .izy b => andThen (readPair (zext16 b) (zext16 (b + 1)) s) fun base => .next (.addr (base + zext16 s.y))
  | .rel off => .next (.rel (relTarget s.pc off))

/-- `LoadOperand(opd)` (R108). -/
def loadOperand (d : Descriptor) (s : State) : Host.Outcome Byte Fault Refusal :=
  match d with
  | .imm v => .next v
  | .acc => .next s.a
  | .addr ea => memRead ea s
  | .none => .refused .operandForm
  | .rel _ => .refused .operandForm

/-- `StoreResult(opd, v)` (R108). -/
def storeResult (d : Descriptor) (v : Byte) (s : State) : Result :=
  match d with
  | .acc => .next (s.withA v)
  | .addr ea => memWrite ea v s
  | .imm _ => .refused .operandForm
  | .none => .refused .operandForm
  | .rel _ => .refused .operandForm

/-- The value of an operand: resolved, then loaded. -/
def operandValue (o : Operand) (s : State) : Host.Outcome Byte Fault Refusal :=
  andThen (resolve o s) fun d => loadOperand d s

/-- The address an operand designates, for JMP and JSR (R101, R104). -/
def operandAddress (o : Operand) (s : State) : Host.Outcome Addr Fault Refusal :=
  andThen (resolve o s) fun d =>
    match d with
    | .addr ea => .next ea
    | .none | .acc | .imm _ | .rel _ => .refused .operandForm

/-- An instruction that reads its operand: `f` is its effect for the value read, and `pc` advances. -/
def readInstr (o : Operand) (f : Byte → State) (s : State) : Result :=
  andThen (operandValue o s) fun m => .next (commit none o.len (f m))

/-- An instruction that stores `v` at its operand, which is not read first (45_load_store_transfer.md R163). -/
def storeInstr (o : Operand) (v : Byte) (s : State) : Result :=
  andThen (resolve o s) fun d => andThen (storeResult d v s) fun t => .next (commit none o.len t)

/-- The read-modify-write shape (R113), and its accumulator form: the operand is resolved once, read, and `g` of the value
written back to the same place, then the flags. -/
def modifyInstr (o : Operand) (g : Byte → Byte) (fl : Byte → Flags) (s : State) : Result :=
  andThen (resolve o s) fun d =>
    andThen (loadOperand d s) fun m =>
      andThen (storeResult d (g m) s) fun t => .next (commit none o.len (t.withFlags (fl m)))

end Sys2Proof.Machine
end

