-- ==== Sys2Proof/Machine/Arithmetic.lean ====
section
/-! DEFINITION. Arithmetic instructions (42_arithmetic.md R130 - R136) and SBC of the extension set (49_ext_official.md R221).
One operation per mnemonic over every operand form, then one meaning per row of the opcode table. -/

namespace Sys2Proof.Machine

/-- `A <- r` with C, V, Z and N of an addition of `m` and the Carry flag (R131). -/
def addToA (m : Byte) (s : State) : State :=
  (s.withA (addWithCarry s.a m s.flags.c).1).withFlags (s.flags.afterAdd (addWithCarry s.a m s.flags.c))

/-- ADC (R131). -/
def opAdc (o : Operand) (s : State) : Result := readInstr o (fun m => addToA m s) s

/-- SBC (R221): ADC of the operand's one's complement. -/
def opSbc (o : Operand) (s : State) : Result := readInstr o (fun m => addToA (m ^^^ 0xFF#8) s) s

/-- The comparison of a register with the operand: flags only (R132). -/
def compareInstr (reg : Byte) (o : Operand) (s : State) : Result :=
  readInstr o (fun m => s.withFlags (s.flags.afterCompare (compareBytes reg m))) s

/-- CMP (R133). -/
def opCmp (o : Operand) (s : State) : Result := compareInstr s.a o s

/-- CPX (R134). -/
def opCpx (o : Operand) (s : State) : Result := compareInstr s.x o s

/-- CPY (R135). -/
def opCpy (o : Operand) (s : State) : Result := compareInstr s.y o s

/-- `ADC #v`, opcode 69 (R131). -/
def execAdcImm (v : Byte) (s : State) : Result := opAdc (.imm v) s
/-- `ADC zp`, opcode 65 (R131). -/
def execAdcZp (zp : Byte) (s : State) : Result := opAdc (.zp zp) s
/-- `ADC zp,X`, opcode 75 (R131). -/
def execAdcZpx (zp : Byte) (s : State) : Result := opAdc (.zpx zp) s
/-- `ADC w`, opcode 6D (R131). -/
def execAdcAbs (w : Addr) (s : State) : Result := opAdc (.abs w) s
/-- `ADC w,X`, opcode 7D (R131). -/
def execAdcAbx (w : Addr) (s : State) : Result := opAdc (.abx w) s
/-- `ADC w,Y`, opcode 79 (R131). -/
def execAdcAby (w : Addr) (s : State) : Result := opAdc (.aby w) s
/-- `ADC (zp,X)`, opcode 61 (R131). -/
def execAdcIzx (zp : Byte) (s : State) : Result := opAdc (.izx zp) s
/-- `ADC (zp),Y`, opcode 71 (R131). -/
def execAdcIzy (zp : Byte) (s : State) : Result := opAdc (.izy zp) s

/-- `SBC #v`, opcode E9 (R221). -/
def execSbcImm (v : Byte) (s : State) : Result := opSbc (.imm v) s
/-- `SBC zp`, opcode E5 (R221). -/
def execSbcZp (zp : Byte) (s : State) : Result := opSbc (.zp zp) s
/-- `SBC zp,X`, opcode F5 (R221). -/
def execSbcZpx (zp : Byte) (s : State) : Result := opSbc (.zpx zp) s
/-- `SBC w`, opcode ED (R221). -/
def execSbcAbs (w : Addr) (s : State) : Result := opSbc (.abs w) s
/-- `SBC w,X`, opcode FD (R221). -/
def execSbcAbx (w : Addr) (s : State) : Result := opSbc (.abx w) s
/-- `SBC w,Y`, opcode F9 (R221). -/
def execSbcAby (w : Addr) (s : State) : Result := opSbc (.aby w) s
/-- `SBC (zp,X)`, opcode E1 (R221). -/
def execSbcIzx (zp : Byte) (s : State) : Result := opSbc (.izx zp) s
/-- `SBC (zp),Y`, opcode F1 (R221). -/
def execSbcIzy (zp : Byte) (s : State) : Result := opSbc (.izy zp) s

/-- `CMP #v`, opcode C9 (R133). -/
def execCmpImm (v : Byte) (s : State) : Result := opCmp (.imm v) s
/-- `CMP zp`, opcode C5 (R133). -/
def execCmpZp (zp : Byte) (s : State) : Result := opCmp (.zp zp) s
/-- `CMP zp,X`, opcode D5 (R133). -/
def execCmpZpx (zp : Byte) (s : State) : Result := opCmp (.zpx zp) s
/-- `CMP w`, opcode CD (R133). -/
def execCmpAbs (w : Addr) (s : State) : Result := opCmp (.abs w) s
/-- `CMP w,X`, opcode DD (R133). -/
def execCmpAbx (w : Addr) (s : State) : Result := opCmp (.abx w) s
/-- `CMP w,Y`, opcode D9 (R133). -/
def execCmpAby (w : Addr) (s : State) : Result := opCmp (.aby w) s
/-- `CMP (zp,X)`, opcode C1 (R133). -/
def execCmpIzx (zp : Byte) (s : State) : Result := opCmp (.izx zp) s
/-- `CMP (zp),Y`, opcode D1 (R133). -/
def execCmpIzy (zp : Byte) (s : State) : Result := opCmp (.izy zp) s

/-- `CPX #v`, opcode E0 (R134). -/
def execCpxImm (v : Byte) (s : State) : Result := opCpx (.imm v) s
/-- `CPX zp`, opcode E4 (R134). -/
def execCpxZp (zp : Byte) (s : State) : Result := opCpx (.zp zp) s
/-- `CPX w`, opcode EC (R134). -/
def execCpxAbs (w : Addr) (s : State) : Result := opCpx (.abs w) s

/-- `CPY #v`, opcode C0 (R135). -/
def execCpyImm (v : Byte) (s : State) : Result := opCpy (.imm v) s
/-- `CPY zp`, opcode C4 (R135). -/
def execCpyZp (zp : Byte) (s : State) : Result := opCpy (.zp zp) s
/-- `CPY w`, opcode CC (R135). -/
def execCpyAbs (w : Addr) (s : State) : Result := opCpy (.abs w) s

end Sys2Proof.Machine
end

