-- ==== Sys2Proof/Machine/Branch.lean ====
section
/-! DEFINITION. Conditional branches (46_branch.md R180 - R186) and BNE, BEQ of the extension set (49_ext_official.md R222, R223).
One operation per mnemonic over every operand form, then one meaning per row of the opcode table. -/

namespace Sys2Proof.Machine

/-- The common rule of every branch (R180): the redirect is the target or the address after the branch; nothing but `pc`
changes and nothing is raised. -/
def branchInstr (cond : Bool) (off : Byte) (s : State) : Result :=
  .next (commit (some (if cond then relTarget s.pc off else s.pc + 2)) 2 s)

/-- `BPL off`, opcode 10 (R181). -/
def execBpl (off : Byte) (s : State) : Result := branchInstr (!s.flags.n) off s

/-- `BMI off`, opcode 30 (R182). -/
def execBmi (off : Byte) (s : State) : Result := branchInstr s.flags.n off s

/-- `BVC off`, opcode 50 (R183). -/
def execBvc (off : Byte) (s : State) : Result := branchInstr (!s.flags.v) off s

/-- `BVS off`, opcode 70 (R184). -/
def execBvs (off : Byte) (s : State) : Result := branchInstr s.flags.v off s

/-- `BCC off`, opcode 90 (R185). -/
def execBcc (off : Byte) (s : State) : Result := branchInstr (!s.flags.c) off s

/-- `BCS off`, opcode B0 (R186). -/
def execBcs (off : Byte) (s : State) : Result := branchInstr s.flags.c off s

/-- `BNE off`, opcode D0 (R222). -/
def execBne (off : Byte) (s : State) : Result := branchInstr (!s.flags.z) off s

/-- `BEQ off`, opcode F0 (R223). -/
def execBeq (off : Byte) (s : State) : Result := branchInstr s.flags.z off s

end Sys2Proof.Machine
end

