-- ==== Sys2Proof/Machine/Control.lean ====
section
/-! DEFINITION. Control transfer (47_stack_and_control.md R194 - R197).
One operation per mnemonic over every operand form, then one meaning per row of the opcode table. -/

namespace Sys2Proof.Machine

/-- JMP (R194). -/
def opJmp (o : Operand) (s : State) : Result :=
  andThen (operandAddress o s) fun ea => .next (commit (some ea) o.len s)

/-- JSR (R195): pushes the address of its own third byte. -/
def opJsr (o : Operand) (s : State) : Result :=
  andThen (operandAddress o s) fun ea => andThen (pushWord (s.pc + 2) s) fun t => .next (commit (some ea) o.len t)

/-- The pop and reconstruct of RTS: the popped word plus one becomes the redirect (R196). -/
def returnTo (s : State) : Result := andThen (popWord s) fun p => .next (commit (some (p.1 + 1)) 1 p.2)

/-- RTS (R196). -/
def opRts (s : State) : Result := returnTo s

/-- RTI (R197): the status first, then as RTS, plus one included (decision D13, log 15). -/
def opRti (s : State) : Result := andThen (popStatus s) fun t => returnTo t

/-- `JMP w`, opcode 4C (R194). -/
def execJmpAbs (w : Addr) (s : State) : Result := opJmp (.abs w) s
/-- `JMP (p)`, opcode 6C (R194). -/
def execJmpInd (p : Addr) (s : State) : Result := opJmp (.ind p) s

/-- `JSR w`, opcode 20 (R195). -/
def execJsr (w : Addr) (s : State) : Result := opJsr (.abs w) s

/-- `RTS`, opcode 60 (R196). -/
def execRts (s : State) : Result := opRts s

/-- `RTI`, opcode 40 (R197). -/
def execRti (s : State) : Result := opRti s

end Sys2Proof.Machine
end

