-- ==== Sys2Proof/Machine/FlagOps.lean ====
section
/-! DEFINITION. Flag instructions and BRK (48_flags_break.md R210 - R215), CLD, SED and NOP of the extension set
(49_ext_official.md R226 - R228).
One operation per mnemonic over every operand form, then one meaning per row of the opcode table. -/

namespace Sys2Proof.Machine

/-- A one-byte instruction that changes flags only. -/
def flagInstr (f : Flags) (s : State) : Result := .next (commit none 1 (s.withFlags f))

/-- `CLC`, opcode 18 (R210). -/
def execClc (s : State) : Result := flagInstr { s.flags with c := false } s

/-- `SEC`, opcode 38 (R211). -/
def execSec (s : State) : Result := flagInstr { s.flags with c := true } s

/-- `CLI`, opcode 58 (R212). -/
def execCli (s : State) : Result := flagInstr { s.flags with i := false } s

/-- `SEI`, opcode 78 (R213). -/
def execSei (s : State) : Result := flagInstr { s.flags with i := true } s

/-- `CLV`, opcode B8 (R214). -/
def execClv (s : State) : Result := flagInstr { s.flags with v := false } s

/-- `CLD`, opcode D8 (R226). -/
def execCld (s : State) : Result := flagInstr { s.flags with d := false } s

/-- `SED`, opcode F8 (R227). -/
def execSed (s : State) : Result := flagInstr { s.flags with d := true } s

/-- `NOP`, opcode EA (R228): only `pc` changes. -/
def execNop (s : State) : Result := .next (commit none 1 s)

/-- `BRK`, opcode 00 (R215): explicitly unsupported, always raises `NotImplemented`; nothing is pushed, no vector is read. -/
def execBrk (_s : State) : Result := .fault .notImplemented

end Sys2Proof.Machine
end

