-- ==== Sys2Proof/Machine/IncDec.lean ====
section
/-! DEFINITION. Increment and decrement instructions (44_incdec.md R150 - R155).
One operation per mnemonic over every operand form, then one meaning per row of the opcode table. -/

namespace Sys2Proof.Machine

/-- INC (R150). -/
def opInc (o : Operand) (s : State) : Result := modifyInstr o (fun m => m + 1) (fun m => s.flags.setZN (m + 1)) s

/-- DEC (R151). -/
def opDec (o : Operand) (s : State) : Result := modifyInstr o (fun m => m - 1) (fun m => s.flags.setZN (m - 1)) s

/-- INX (R152). -/
def opInx (s : State) : Result := .next (commit none 1 (putX (s.x + 1) s))

/-- DEX (R153). -/
def opDex (s : State) : Result := .next (commit none 1 (putX (s.x - 1) s))

/-- INY (R154). -/
def opIny (s : State) : Result := .next (commit none 1 (putY (s.y + 1) s))

/-- DEY (R155). -/
def opDey (s : State) : Result := .next (commit none 1 (putY (s.y - 1) s))

/-- `INC zp`, opcode E6 (R150). -/
def execIncZp (zp : Byte) (s : State) : Result := opInc (.zp zp) s
/-- `INC zp,X`, opcode F6 (R150). -/
def execIncZpx (zp : Byte) (s : State) : Result := opInc (.zpx zp) s
/-- `INC w`, opcode EE (R150). -/
def execIncAbs (w : Addr) (s : State) : Result := opInc (.abs w) s
/-- `INC w,X`, opcode FE (R150). -/
def execIncAbx (w : Addr) (s : State) : Result := opInc (.abx w) s

/-- `DEC zp`, opcode C6 (R151). -/
def execDecZp (zp : Byte) (s : State) : Result := opDec (.zp zp) s
/-- `DEC zp,X`, opcode D6 (R151). -/
def execDecZpx (zp : Byte) (s : State) : Result := opDec (.zpx zp) s
/-- `DEC w`, opcode CE (R151). -/
def execDecAbs (w : Addr) (s : State) : Result := opDec (.abs w) s
/-- `DEC w,X`, opcode DE (R151). -/
def execDecAbx (w : Addr) (s : State) : Result := opDec (.abx w) s

/-- `INX`, opcode E8 (R152). -/
def execInx (s : State) : Result := opInx s

/-- `DEX`, opcode CA (R153). -/
def execDex (s : State) : Result := opDex s

/-- `INY`, opcode C8 (R154). -/
def execIny (s : State) : Result := opIny s

/-- `DEY`, opcode 88 (R155). -/
def execDey (s : State) : Result := opDey s

end Sys2Proof.Machine
end

