-- ==== Sys2Proof/Machine/LoadStore.lean ====
section
/-! DEFINITION. Load, store and transfer instructions (45_load_store_transfer.md R160 - R169) and TSX, TXS of the extension set
(49_ext_official.md R224, R225).
One operation per mnemonic over every operand form, then one meaning per row of the opcode table. -/

namespace Sys2Proof.Machine

/-- LDA (R160). -/
def opLda (o : Operand) (s : State) : Result := readInstr o (fun m => putA m s) s

/-- LDX (R161). -/
def opLdx (o : Operand) (s : State) : Result := readInstr o (fun m => putX m s) s

/-- LDY (R162). -/
def opLdy (o : Operand) (s : State) : Result := readInstr o (fun m => putY m s) s

/-- STA (R163). -/
def opSta (o : Operand) (s : State) : Result := storeInstr o s.a s

/-- STX (R164). -/
def opStx (o : Operand) (s : State) : Result := storeInstr o s.x s

/-- STY (R165). -/
def opSty (o : Operand) (s : State) : Result := storeInstr o s.y s

/-- TAX (R166). -/
def opTax (s : State) : Result := .next (commit none 1 (putX s.a s))

/-- TXA (R167). -/
def opTxa (s : State) : Result := .next (commit none 1 (putA s.x s))

/-- TAY (R168). -/
def opTay (s : State) : Result := .next (commit none 1 (putY s.a s))

/-- TYA (R169). -/
def opTya (s : State) : Result := .next (commit none 1 (putA s.y s))

/-- TSX (R224). -/
def opTsx (s : State) : Result := .next (commit none 1 (putX s.sp s))

/-- TXS (R225): no flag changes. -/
def opTxs (s : State) : Result := .next (commit none 1 (s.withSP s.x))

/-- `LDA #v`, opcode A9 (R160). -/
def execLdaImm (v : Byte) (s : State) : Result := opLda (.imm v) s
/-- `LDA zp`, opcode A5 (R160). -/
def execLdaZp (zp : Byte) (s : State) : Result := opLda (.zp zp) s
/-- `LDA zp,X`, opcode B5 (R160). -/
def execLdaZpx (zp : Byte) (s : State) : Result := opLda (.zpx zp) s
/-- `LDA w`, opcode AD (R160). -/
def execLdaAbs (w : Addr) (s : State) : Result := opLda (.abs w) s
/-- `LDA w,X`, opcode BD (R160). -/
def execLdaAbx (w : Addr) (s : State) : Result := opLda (.abx w) s
/-- `LDA w,Y`, opcode B9 (R160). -/
def execLdaAby (w : Addr) (s : State) : Result := opLda (.aby w) s
/-- `LDA (zp,X)`, opcode A1 (R160). -/
def execLdaIzx (zp : Byte) (s : State) : Result := opLda (.izx zp) s
/-- `LDA (zp),Y`, opcode B1 (R160). -/
def execLdaIzy (zp : Byte) (s : State) : Result := opLda (.izy zp) s

/-- `LDX #v`, opcode A2 (R161). -/
def execLdxImm (v : Byte) (s : State) : Result := opLdx (.imm v) s
/-- `LDX zp`, opcode A6 (R161). -/
def execLdxZp (zp : Byte) (s : State) : Result := opLdx (.zp zp) s
/-- `LDX zp,Y`, opcode B6 (R161). -/
def execLdxZpy (zp : Byte) (s : State) : Result := opLdx (.zpy zp) s
/-- `LDX w`, opcode AE (R161). -/
def execLdxAbs (w : Addr) (s : State) : Result := opLdx (.abs w) s
/-- `LDX w,Y`, opcode BE (R161). -/
def execLdxAby (w : Addr) (s : State) : Result := opLdx (.aby w) s

/-- `LDY #v`, opcode A0 (R162). -/
def execLdyImm (v : Byte) (s : State) : Result := opLdy (.imm v) s
/-- `LDY zp`, opcode A4 (R162). -/
def execLdyZp (zp : Byte) (s : State) : Result := opLdy (.zp zp) s
/-- `LDY zp,X`, opcode B4 (R162). -/
def execLdyZpx (zp : Byte) (s : State) : Result := opLdy (.zpx zp) s
/-- `LDY w`, opcode AC (R162). -/
def execLdyAbs (w : Addr) (s : State) : Result := opLdy (.abs w) s
/-- `LDY w,X`, opcode BC (R162). -/
def execLdyAbx (w : Addr) (s : State) : Result := opLdy (.abx w) s

/-- `STA zp`, opcode 85 (R163). -/
def execStaZp (zp : Byte) (s : State) : Result := opSta (.zp zp) s
/-- `STA zp,X`, opcode 95 (R163). -/
def execStaZpx (zp : Byte) (s : State) : Result := opSta (.zpx zp) s
/-- `STA w`, opcode 8D (R163). -/
def execStaAbs (w : Addr) (s : State) : Result := opSta (.abs w) s
/-- `STA w,X`, opcode 9D (R163). -/
def execStaAbx (w : Addr) (s : State) : Result := opSta (.abx w) s
/-- `STA w,Y`, opcode 99 (R163). -/
def execStaAby (w : Addr) (s : State) : Result := opSta (.aby w) s
/-- `STA (zp,X)`, opcode 81 (R163). -/
def execStaIzx (zp : Byte) (s : State) : Result := opSta (.izx zp) s
/-- `STA (zp),Y`, opcode 91 (R163). -/
def execStaIzy (zp : Byte) (s : State) : Result := opSta (.izy zp) s

/-- `STX zp`, opcode 86 (R164). -/
def execStxZp (zp : Byte) (s : State) : Result := opStx (.zp zp) s
/-- `STX zp,Y`, opcode 96 (R164). -/
def execStxZpy (zp : Byte) (s : State) : Result := opStx (.zpy zp) s
/-- `STX w`, opcode 8E (R164). -/
def execStxAbs (w : Addr) (s : State) : Result := opStx (.abs w) s

/-- `STY zp`, opcode 84 (R165). -/
def execStyZp (zp : Byte) (s : State) : Result := opSty (.zp zp) s
/-- `STY zp,X`, opcode 94 (R165). -/
def execStyZpx (zp : Byte) (s : State) : Result := opSty (.zpx zp) s
/-- `STY w`, opcode 8C (R165). -/
def execStyAbs (w : Addr) (s : State) : Result := opSty (.abs w) s

/-- `TAX`, opcode AA (R166). -/
def execTax (s : State) : Result := opTax s

/-- `TXA`, opcode 8A (R167). -/
def execTxa (s : State) : Result := opTxa s

/-- `TAY`, opcode A8 (R168). -/
def execTay (s : State) : Result := opTay s

/-- `TYA`, opcode 98 (R169). -/
def execTya (s : State) : Result := opTya s

/-- `TSX`, opcode BA (R224). -/
def execTsx (s : State) : Result := opTsx s

/-- `TXS`, opcode 9A (R225). -/
def execTxs (s : State) : Result := opTxs s

end Sys2Proof.Machine
end

