-- ==== Sys2Proof/Machine/Logical.lean ====
section
/-! DEFINITION. Logical instructions (41_logical.md R120 - R123).
One operation per mnemonic over every operand form, then one meaning per row of the opcode table. -/

namespace Sys2Proof.Machine

/-- ORA (R120). -/
def opOra (o : Operand) (s : State) : Result := readInstr o (fun m => putA (s.a ||| m) s) s

/-- AND (R121). -/
def opAnd (o : Operand) (s : State) : Result := readInstr o (fun m => putA (s.a &&& m) s) s

/-- EOR (R122). -/
def opEor (o : Operand) (s : State) : Result := readInstr o (fun m => putA (s.a ^^^ m) s) s

/-- BIT (R123): flags only; N and V come from the operand (conflict C2). -/
def opBit (o : Operand) (s : State) : Result := readInstr o (fun m => s.withFlags (s.flags.afterBit s.a m)) s

/-- `ORA #v`, opcode 09 (R120). -/
def execOraImm (v : Byte) (s : State) : Result := opOra (.imm v) s
/-- `ORA zp`, opcode 05 (R120). -/
def execOraZp (zp : Byte) (s : State) : Result := opOra (.zp zp) s
/-- `ORA zp,X`, opcode 15 (R120). -/
def execOraZpx (zp : Byte) (s : State) : Result := opOra (.zpx zp) s
/-- `ORA w`, opcode 0D (R120). -/
def execOraAbs (w : Addr) (s : State) : Result := opOra (.abs w) s
/-- `ORA w,X`, opcode 1D (R120). -/
def execOraAbx (w : Addr) (s : State) : Result := opOra (.abx w) s
/-- `ORA w,Y`, opcode 19 (R120). -/
def execOraAby (w : Addr) (s : State) : Result := opOra (.aby w) s
/-- `ORA (zp,X)`, opcode 01 (R120). -/
def execOraIzx (zp : Byte) (s : State) : Result := opOra (.izx zp) s
/-- `ORA (zp),Y`, opcode 11 (R120). -/
def execOraIzy (zp : Byte) (s : State) : Result := opOra (.izy zp) s

/-- `AND #v`, opcode 29 (R121). -/
def execAndImm (v : Byte) (s : State) : Result := opAnd (.imm v) s
/-- `AND zp`, opcode 25 (R121). -/
def execAndZp (zp : Byte) (s : State) : Result := opAnd (.zp zp) s
/-- `AND zp,X`, opcode 35 (R121). -/
def execAndZpx (zp : Byte) (s : State) : Result := opAnd (.zpx zp) s
/-- `AND w`, opcode 2D (R121). -/
def execAndAbs (w : Addr) (s : State) : Result := opAnd (.abs w) s
/-- `AND w,X`, opcode 3D (R121). -/
def execAndAbx (w : Addr) (s : State) : Result := opAnd (.abx w) s
/-- `AND w,Y`, opcode 39 (R121). -/
def execAndAby (w : Addr) (s : State) : Result := opAnd (.aby w) s
/-- `AND (zp,X)`, opcode 21 (R121). -/
def execAndIzx (zp : Byte) (s : State) : Result := opAnd (.izx zp) s
/-- `AND (zp),Y`, opcode 31 (R121). -/
def execAndIzy (zp : Byte) (s : State) : Result := opAnd (.izy zp) s

/-- `EOR #v`, opcode 49 (R122). -/
def execEorImm (v : Byte) (s : State) : Result := opEor (.imm v) s
/-- `EOR zp`, opcode 45 (R122). -/
def execEorZp (zp : Byte) (s : State) : Result := opEor (.zp zp) s
/-- `EOR zp,X`, opcode 55 (R122). -/
def execEorZpx (zp : Byte) (s : State) : Result := opEor (.zpx zp) s
/-- `EOR w`, opcode 4D (R122). -/
def execEorAbs (w : Addr) (s : State) : Result := opEor (.abs w) s
/-- `EOR w,X`, opcode 5D (R122). -/
def execEorAbx (w : Addr) (s : State) : Result := opEor (.abx w) s
/-- `EOR w,Y`, opcode 59 (R122). -/
def execEorAby (w : Addr) (s : State) : Result := opEor (.aby w) s
/-- `EOR (zp,X)`, opcode 41 (R122). -/
def execEorIzx (zp : Byte) (s : State) : Result := opEor (.izx zp) s
/-- `EOR (zp),Y`, opcode 51 (R122). -/
def execEorIzy (zp : Byte) (s : State) : Result := opEor (.izy zp) s

/-- `BIT zp`, opcode 24 (R123). -/
def execBitZp (zp : Byte) (s : State) : Result := opBit (.zp zp) s
/-- `BIT w`, opcode 2C (R123). -/
def execBitAbs (w : Addr) (s : State) : Result := opBit (.abs w) s

end Sys2Proof.Machine
end

