-- ==== Sys2Proof/Machine/Shift.lean ====
section
/-! DEFINITION. Shift and rotate instructions (43_shift_rotate.md R140 - R145).
One operation per mnemonic over every operand form, then one meaning per row of the opcode table. -/

namespace Sys2Proof.Machine

/-- ASL (R141). -/
def opAsl (o : Operand) (s : State) : Result :=
  modifyInstr o (fun m => (asl m).1) (fun m => s.flags.afterShift (asl m)) s

/-- LSR (R142). -/
def opLsr (o : Operand) (s : State) : Result :=
  modifyInstr o (fun m => (lsr m).1) (fun m => s.flags.afterShift (lsr m)) s

/-- ROL (R143); Z and N from the result (decision D10, log 16). -/
def opRol (o : Operand) (s : State) : Result :=
  modifyInstr o (fun m => (rol m s.flags.c).1) (fun m => s.flags.afterShift (rol m s.flags.c)) s

/-- ROR (R144); Z and N from the result (decision D10, log 16). -/
def opRor (o : Operand) (s : State) : Result :=
  modifyInstr o (fun m => (ror m s.flags.c).1) (fun m => s.flags.afterShift (ror m s.flags.c)) s

/-- `ASL A`, opcode 0A (R141). -/
def execAslAcc (s : State) : Result := opAsl .acc s
/-- `ASL zp`, opcode 06 (R141). -/
def execAslZp (zp : Byte) (s : State) : Result := opAsl (.zp zp) s
/-- `ASL zp,X`, opcode 16 (R141). -/
def execAslZpx (zp : Byte) (s : State) : Result := opAsl (.zpx zp) s
/-- `ASL w`, opcode 0E (R141). -/
def execAslAbs (w : Addr) (s : State) : Result := opAsl (.abs w) s
/-- `ASL w,X`, opcode 1E (R141). -/
def execAslAbx (w : Addr) (s : State) : Result := opAsl (.abx w) s

/-- `LSR A`, opcode 4A (R142). -/
def execLsrAcc (s : State) : Result := opLsr .acc s
/-- `LSR zp`, opcode 46 (R142). -/
def execLsrZp (zp : Byte) (s : State) : Result := opLsr (.zp zp) s
/-- `LSR zp,X`, opcode 56 (R142). -/
def execLsrZpx (zp : Byte) (s : State) : Result := opLsr (.zpx zp) s
/-- `LSR w`, opcode 4E (R142). -/
def execLsrAbs (w : Addr) (s : State) : Result := opLsr (.abs w) s
/-- `LSR w,X`, opcode 5E (R142). -/
def execLsrAbx (w : Addr) (s : State) : Result := opLsr (.abx w) s

/-- `ROL A`, opcode 2A (R143). -/
def execRolAcc (s : State) : Result := opRol .acc s
/-- `ROL zp`, opcode 26 (R143). -/
def execRolZp (zp : Byte) (s : State) : Result := opRol (.zp zp) s
/-- `ROL zp,X`, opcode 36 (R143). -/
def execRolZpx (zp : Byte) (s : State) : Result := opRol (.zpx zp) s
/-- `ROL w`, opcode 2E (R143). -/
def execRolAbs (w : Addr) (s : State) : Result := opRol (.abs w) s
/-- `ROL w,X`, opcode 3E (R143). -/
def execRolAbx (w : Addr) (s : State) : Result := opRol (.abx w) s

/-- `ROR A`, opcode 6A (R144). -/
def execRorAcc (s : State) : Result := opRor .acc s
/-- `ROR zp`, opcode 66 (R144). -/
def execRorZp (zp : Byte) (s : State) : Result := opRor (.zp zp) s
/-- `ROR zp,X`, opcode 76 (R144). -/
def execRorZpx (zp : Byte) (s : State) : Result := opRor (.zpx zp) s
/-- `ROR w`, opcode 6E (R144). -/
def execRorAbs (w : Addr) (s : State) : Result := opRor (.abs w) s
/-- `ROR w,X`, opcode 7E (R144). -/
def execRorAbx (w : Addr) (s : State) : Result := opRor (.abx w) s

end Sys2Proof.Machine
end

