-- ==== Sys2Proof/Machine/Stack.lean ====
section
/-! DEFINITION. Stack instructions (47_stack_and_control.md R190 - R193).
One operation per mnemonic over every operand form, then one meaning per row of the opcode table. -/

namespace Sys2Proof.Machine

/-- PHA (R190). -/
def opPha (s : State) : Result := andThen (push s.a s) fun t => .next (commit none 1 t)

/-- PLA (R191). -/
def opPla (s : State) : Result := andThen (pop s) fun p => .next (commit none 1 (putA p.1 p.2))

/-- PHP (R192): always the instruction context. -/
def opPhp (s : State) : Result := andThen (pushStatus .instruction s) fun t => .next (commit none 1 t)

/-- PLP (R193). -/
def opPlp (s : State) : Result := andThen (popStatus s) fun t => .next (commit none 1 t)

/-- `PHA`, opcode 48 (R190). -/
def execPha (s : State) : Result := opPha s

/-- `PLA`, opcode 68 (R191). -/
def execPla (s : State) : Result := opPla s

/-- `PHP`, opcode 08 (R192). -/
def execPhp (s : State) : Result := opPhp s

/-- `PLP`, opcode 28 (R193). -/
def execPlp (s : State) : Result := opPlp s

end Sys2Proof.Machine
end

