-- ==== Sys2Proof/Machine/Fetch.lean ====
section
/-! DEFINITION. Fetching and decoding the instruction at the program counter (40_step_and_addressing.md R91 - R93), and placing
an instruction where the step fetches. -/

namespace Sys2Proof.Machine

/-- The fetch: the opcode byte, its table entry under this run's `EXT_OFFICIAL`, then exactly the operand bytes the entry's
length requires, in that order (R91 - R93, priority R247). -/
def fetchInstr (s : State) : Host.Outcome Instr Fault Refusal :=
  andThen (memRead s.pc s) fun op =>
    match tableEntry s.cfg.extOfficial op with
    | .illegal => .fault (.illegalOpcode op)
    | .one i => .next i
    | .two f => andThen (memRead (s.pc + 1) s) fun b1 => .next (f b1)
    | .three f => andThen (memRead (s.pc + 1) s) fun b1 => andThen (memRead (s.pc + 2) s) fun b2 => .next (f (joinBytes b1 b2))

/-- Puts bytes into the storage from an address upwards (mod 65536), passing over addresses that have no cell. -/
def pokeBytes : Addr → List Byte → State → State
  | _, [], s => s
  | addr, v :: vs, s =>
    pokeBytes (addr + 1) vs
      (match cellOf addr with
      | some k => s.withMem (s.mem.write k v)
      | none => s)

/-- Where an instruction of up to three bytes can be placed for the next fetch: at `pc` unless one of the three addresses
is forbidden; then at the cartridge base. -/
def placeAddr (pc : Addr) : Addr :=
  if forbidden pc || forbidden (pc + 1) || forbidden (pc + 2) then BitVec.ofNat 16 Config.cartBase else pc

/-- A machine that has `bytes` at its program counter, is not halted, and has the extension open if the first byte is an
extension opcode (log 10). -/
def placeInstr (bytes : List Byte) (s : State) : State :=
  let gate := s.cfg.extOfficial || isExtensionOpcode (bytes.headD 0x00#8)
  pokeBytes (placeAddr s.pc) bytes
    (((s.withPC (placeAddr s.pc)).withLatch none).withCfg { s.cfg with extOfficial := gate })

end Sys2Proof.Machine
end

