-- ==== Sys2Proof/Machine/Step.lean ====
section
/-! DEFINITION. The step (40_step_and_addressing.md R90). -/

namespace Sys2Proof.Machine

/-- One step: a halted machine has none (60_exceptions.md R248); otherwise one instruction, from its opcode fetch to its
program-counter commit. -/
def step (s : State) : Host.Outcome State Fault Refusal :=
  match s.latch with
  | some k => .refused (.halted k)
  | none => andThen (fetchInstr s) fun i => exec i s

/-- `s` with the instruction whose bits are `w` placed where the next step fetches (log 10). -/
def State.withFetchWord (s : State) (nbits w : Nat) : State := placeInstr (wordBytes nbits w) s

end Sys2Proof.Machine
end

