-- ==== Sys2Proof/Machine/Agents.lean ====
section
/-! DEFINITION. The step with its fault latch (60_exceptions.md R248), the host's operations on the machine (10_state.md R32,
20_memory.md R57, R58), and the system of the two agents (00_scope.md R4). -/

namespace Sys2Proof.Machine

/-- The state a step leaves: the next state, or the unchanged state with the fault's kind latched, or the unchanged state
of a machine that has no step (R246, R248). -/
def stepLatched (s : State) : State :=
  match step s with
  | .next t => t
  | .fault f => haltWith f s
  | .refused _ => s

/-! ### Host operations -/

/-- The 8-bit registers of the register file. -/
inductive RegName where
  | a | x | y | sp
  deriving DecidableEq, Repr

/-- The flags of the register file. -/
inductive FlagName where
  | c | z | i | d | b | v | n
  deriving DecidableEq, Repr

/-- Get access to a register (R32). -/
def getReg : RegName → State → Byte
  | .a, s => s.a
  | .x, s => s.x
  | .y, s => s.y
  | .sp, s => s.sp

/-- Set access to a register (R32). -/
def setReg : RegName → Byte → State → State
  | .a, v, s => s.withA v
  | .x, v, s => s.withX v
  | .y, v, s => s.withY v
  | .sp, v, s => s.withSP v

/-- Get access to a flag (R32). -/
def getFlag : FlagName → State → Bool
  | .c, s => s.flags.c
  | .z, s => s.flags.z
  | .i, s => s.flags.i
  | .d, s => s.flags.d
  | .b, s => s.flags.b
  | .v, s => s.flags.v
  | .n, s => s.flags.n

/-- Set access to a flag (R32). -/
def setFlag : FlagName → Bool → State → State
  | .c, e, s => s.withFlags { s.flags with c := e }
  | .z, e, s => s.withFlags { s.flags with z := e }
  | .i, e, s => s.withFlags { s.flags with i := e }
  | .d, e, s => s.withFlags { s.flags with d := e }
  | .b, e, s => s.withFlags { s.flags with b := e }
  | .v, e, s => s.withFlags { s.flags with v := e }
  | .n, e, s => s.withFlags { s.flags with n := e }

/-- Cartridge bytes from cell `k` upwards replaced by `bytes`. -/
def Memory.load : Nat → List Byte → Memory → Memory
  | _, [], m => m
  | k, v :: vs, m => Memory.load (k + 1) vs (m.write k v)

/-- `loadProgram(bytes)` (20_memory.md R57): all of the bytes into cartridge space at its base, or `ProgramTooLarge` and no
byte (D30; log 25). -/
def loadProgram (bytes : List Byte) (s : State) : Result :=
  if bytes.length > Config.cartSize then .fault .programTooLarge
  else .next (s.withMem (Memory.load Config.cartBase bytes s.mem))

/-- The host's moves that change the machine; its reads are `memRead`, `getReg`, `getFlag` and change nothing. -/
inductive HostMove where
  | setReg (r : RegName) (v : Byte)
  | setPc (t : Addr)
  | setFlag (f : FlagName) (e : Bool)
  | write (addr : Addr) (v : Byte)
  | loadProgram (bytes : List Byte)
  deriving DecidableEq, Repr

/-- A host move before the first step (70_reset_and_hazards.md R272): any of them, memory through the same region map. -/
def bootMove (h : HostMove) (s : State) : Result :=
  match h with
  | .setReg r v => .next (setReg r v s)
  | .setPc t => .next (s.withPC t)
  | .setFlag f e => .next (setFlag f e s)
  | .write addr v => memWrite addr v s
  | .loadProgram bytes => loadProgram bytes s

/-- Whether an address lies in the peripheral slots 0x2000 - 0x3FFF or 0x4000 - 0x4017. -/
def inSlots (addr : Addr) : Bool := decide (0x2000 ≤ addr.toNat) && decide (addr.toNat ≤ 0x4017)

/-- A host move between two steps of a run (20_memory.md R58): none in a closed system; in an open one memory writes go to
the peripheral slots only, and the forbidden region fails for this caller too (R45) (log 12). DESIGN CHOICE: the latch is not
looked at, so that a halted machine of an open system takes moves too; R58, R32 and R248 leave that open. Unsafe (log 27). -/
def runMove (h : HostMove) (s : State) : Result :=
  match s.cfg.collaborators, h with
  | false, _ => .refused .closedSystem
  | true, .write addr v => if inSlots addr || forbidden addr then memWrite addr v s else .refused .outsideSlots
  | true, .setReg r v => bootMove (.setReg r v) s
  | true, .setPc t => bootMove (.setPc t) s
  | true, .setFlag f e => bootMove (.setFlag f e) s
  | true, .loadProgram bytes => bootMove (.loadProgram bytes) s

/-- What happens next in a run: a step, or a host move between steps. -/
inductive Event where
  | cpu
  | host (h : HostMove)
  deriving DecidableEq, Repr

/-- One event of a run. A host operation that fails changes nothing and does not set the latch (60_exceptions.md R244). -/
def act (e : Event) (s : State) : State :=
  match e with
  | .cpu => stepLatched s
  | .host h =>
    match runMove h s with
    | .next t => t
    | .fault _ => s
    | .refused _ => s

end Sys2Proof.Machine
end

