-- ==== Sys2Proof/Safety.lean ====
section
/-! DEFINITION. The terms in which claims about the machine are made: what is in place for a step to run an instruction, what
an instruction may store to, the invariant, and safe runs. -/

namespace Sys2Proof.Machine

/-- The bytes stand in memory from an address upwards, mod 65536. -/
def BytesAt (addr : Addr) (bytes : List Byte) (s : State) : Prop :=
  ∀ k v, bytes[k]? = some v → memRead (addr + BitVec.ofNat 16 k) s = .next v

/-- The machine is not halted and the bytes of `i`, an instruction of this run's table, stand at the program counter. -/
def Ready (i : Instr) (s : State) : Prop :=
  s.latch = none ∧ i.wellFormed s.cfg.extOfficial = true ∧ BytesAt s.pc (encode i) s

/-- A one-byte instruction runs as `effect`: its execution completes so in every state, a step that fetches its opcode byte
is that execution, and the one fault its step can meet is that of the opcode fetch. -/
def RunsAs (i : Instr) (effect : State → State) : Prop :=
  ∀ s, exec i s = .next (effect s) ∧
    (s.latch = none → i.wellFormed s.cfg.extOfficial = true →
      (memRead s.pc s = .next i.opcode → step s = .next (effect s)) ∧
      (∀ f, memRead s.pc s = .fault f → step s = .fault f))

/-- The addresses an instruction stores to from a state, computed as its meaning computes them: a store's or a memory
read-modify-write's effective address, or the stack slots of a push. -/
def storedAddrs (i : Instr) (s : State) : List Addr :=
  match i.mnemonic with
  | .sta | .stx | .sty | .inc | .dec | .asl | .lsr | .rol | .ror =>
    match resolve i.operand s with
    | .next (.addr ea) => [ea]
    | _ => []
  | .pha | .php => [stackAddr s.cfg s.sp]
  | .jsr => [stackAddr s.cfg s.sp, stackAddr s.cfg (s.sp - 1)]
  | _ => []

/-- The RAM cell of the stack slot at offset `p`: `STACK_PAGE*256 + p` through the 2 KB mirror (20_memory.md R41, R52). -/
def stackCell (c : Config) (p : Byte) : Nat := (c.stackPage.toNat * 256 + p.toNat) % 0x0800

/-- Two addresses name different storage cells, or none: writing the one leaves the other (20_memory.md R46). -/
def Apart (p q : Addr) : Prop := route p ≠ route q

/-- Zero and Negative as the spec words them (10_state.md R27): Zero when the result is 0, Negative when its bit 7 is set. -/
def zeroNegative (r : Byte) (f : Flags) : Flags := { f with z := decide (r = 0#8), n := decide (128 ≤ r.toNat) }

/-- The shifts and rotates as moves of bits: the result and the bit that becomes Carry, from the input and the old Carry
(43_shift_rotate.md R140). -/
def shiftSpec (m : Mnemonic) (v : Byte) (c : Bool) : Option (Byte × Bool) :=
  match m with
  | .asl => some (v <<< 1, v.getLsbD 7)
  | .lsr => some (v >>> 1, v.getLsbD 0)
  | .rol => some ((v <<< 1) ||| (if c then 0x01#8 else 0x00#8), v.getLsbD 7)
  | .ror => some ((v >>> 1) ||| (if c then 0x80#8 else 0x00#8), v.getLsbD 0)
  | _ => none

/-- The 105 opcode bytes that carry no instruction in any configuration, as 30_encoding.md R76 lists them. -/
def illegalOpcodes : List Nat :=
  [0x02, 0x03, 0x04, 0x07, 0x0B, 0x0C, 0x0F, 0x12, 0x13, 0x14, 0x17, 0x1A, 0x1B, 0x1C, 0x1F, 0x22, 0x23, 0x27] ++
  [0x2B, 0x2F, 0x32, 0x33, 0x34, 0x37, 0x3A, 0x3B, 0x3C, 0x3F, 0x42, 0x43, 0x44, 0x47, 0x4B, 0x4F, 0x52, 0x53] ++
  [0x54, 0x57, 0x5A, 0x5B, 0x5C, 0x5F, 0x62, 0x63, 0x64, 0x67, 0x6B, 0x6F, 0x72, 0x73, 0x74, 0x77, 0x7A, 0x7B] ++
  [0x7C, 0x7F, 0x80, 0x82, 0x83, 0x87, 0x89, 0x8B, 0x8F, 0x92, 0x93, 0x97, 0x9B, 0x9C, 0x9E, 0x9F, 0xA3, 0xA7] ++
  [0xAB, 0xAF, 0xB2, 0xB3, 0xB7, 0xBB, 0xBF, 0xC2, 0xC3, 0xC7, 0xCB, 0xCF, 0xD2, 0xD3, 0xD4, 0xD7, 0xDA, 0xDB] ++
  [0xDC, 0xDF, 0xE2, 0xE3, 0xE7, 0xEB, 0xEF, 0xF2, 0xF3, 0xF4, 0xF7, 0xFA, 0xFB, 0xFC, 0xFF]

/-- Pushes a list of bytes, its head first. -/
def pushAll : List Byte → State → Result
  | [], s => .next s
  | v :: vs, s => andThen (push v s) fun t => pushAll vs t

/-- Pops `n` bytes, the first popped at the head. -/
def popMany : Nat → State → Host.Outcome (List Byte × State) Fault Refusal
  | 0, s => .next ([], s)
  | n + 1, s => andThen (pop s) fun p => andThen (popMany n p.2) fun q => .next (p.1 :: q.1, q.2)

/-- The invariant of the machine: the storage is in canonical form. -/
def Inv (s : State) : Prop := s.mem.wf = true

/-- The outcome of an instruction with a function applied to the next state. -/
def mapNext (f : State → State) (o : Result) : Result := andThen o fun t => .next (f t)

/-- `k` steps that all succeed: a safe run. A run ends when the host stops stepping or a step faults
(70_reset_and_hazards.md R274). -/
def runSteps : Nat → State → Result
  | 0, s => .next s
  | k + 1, s => andThen (step s) fun t => runSteps k t

end Sys2Proof.Machine
end

