-- ==== Sys2Proof/Certificates/Slice0/Obligations.lean ====
section
/-! DEFINITION. The statements about the machine, from the spec's numbered rules, for the provers. -/

open Sys2Proof Sys2Proof.Machine

/-- Decode and encode agree (30_encoding.md R70 - R77): every instruction of the table of either `EXT_OFFICIAL`, with every operand, is read back from its bytes. The byte values are the spec's general knowledge G1 (log 7). Marked: the gate of the extension set is decision D1: log 6. -/
def Obligations.DecodeOfEncodeIsTheInstruction : Prop :=
  ∀ (ext : Bool) (i : Instr) (rest : List Byte), i.wellFormed ext = true →
    decode ext (encode i ++ rest) = .ok (i, rest)

/-- The other direction: bytes that decode are the encoding of the instruction read, so that the table by opcode (R74) and the table by mnemonic (R75) are the same table (log 7). Marked: the byte values are general knowledge G1: log 7; the gate of the extension set is decision D1: log 6. -/
def Obligations.DecodedBytesAreTheEncoding : Prop :=
  ∀ (ext : Bool) (bytes : List Byte) (i : Instr) (rest : List Byte), decode ext bytes = .ok (i, rest) →
    i.wellFormed ext = true ∧ encode i ++ rest = bytes

/-- A word of each family, byte by byte from R74 (log 7). Marked: the byte values are general knowledge G1: log 7; the gate of the extension set is decision D1: log 6. -/
def Obligations.SampleWordsDecodeToTheirInstructions : Prop :=
  decode false [0x09#8, 0x80#8] = .ok (.oraImm 0x80#8, []) ∧
    decode false [0x7D#8, 0x00#8, 0x02#8] = .ok (.adcAbx 0x0200#16, []) ∧
    decode false [0x6A#8] = .ok (.rorAcc, []) ∧
    decode false [0xDE#8, 0x00#8, 0x02#8] = .ok (.decAbx 0x0200#16, []) ∧
    decode false [0x96#8, 0x10#8] = .ok (.stxZpy 0x10#8, []) ∧
    decode false [0x10#8, 0xF9#8] = .ok (.bpl 0xF9#8, []) ∧
    decode false [0x48#8] = .ok (.pha, []) ∧
    decode false [0x6C#8, 0xFF#8, 0x02#8] = .ok (.jmpInd 0x02FF#16, []) ∧
    decode false [0x78#8] = .ok (.sei, []) ∧
    decode false [0x00#8] = .ok (.brk, []) ∧
    decode true [0xF1#8, 0x40#8] = .ok (.sbcIzy 0x40#8, []) ∧
    decode false [0xF1#8, 0x40#8] = .error (.illegalOpcode 0xF1#8)

/-- R76, R77, R242: the opcode bytes that stop a step, and that they change nothing but the latch (log 6, 7, 9). Marked: the address or byte a fault carries is decision D29: log 23. -/
def Obligations.IllegalOpcodesStopTheStep : Prop :=
  ∀ (s : State) (op : Byte), s.latch = none → memRead s.pc s = .next op →
    (step s = .fault (.illegalOpcode op) ↔
      op.toNat ∈ illegalOpcodes ∨ (s.cfg.extOfficial = false ∧ op ∈ extensionOpcodes)) ∧
    (step s = .fault (.illegalOpcode op) → stepLatched s = { s with latch := some .illegalOpcode })

/-- R90: what ties the meanings to a run. `exec` runs at the state whose `pc` is the opcode's address and commits `pc` itself (R109); the step adds the fetch and the halt check (log 9) only. Marked: the gate of the extension set is decision D1: log 6; the wrap of pc is decision D20: log 20. -/
def Obligations.StepRunsTheDecodedInstruction : Prop :=
  ∀ (s : State) (bytes : List Byte) (i : Instr), s.latch = none → BytesAt s.pc bytes s →
    decode s.cfg.extOfficial bytes = .ok (i, []) → step s = exec i s

/-- R247, priorities 1 to 3 (decisions D15, D19; log 19). Marked: the halted machine is decision D16: log 9; the wrap of pc is decision D20: log 20; the gate of the extension set is decision D1: log 6; the address or byte a fault carries is decision D29: log 23. -/
def Obligations.FetchFaultsInTheOrderOfTheStep : Prop :=
  ∀ s : State, s.latch = none →
    (forbidden s.pc = true → step s = .fault (.restrictedRegion s.pc)) ∧
    ∀ op, memRead s.pc s = .next op →
      match tableEntry s.cfg.extOfficial op with
      | .illegal => step s = .fault (.illegalOpcode op)
      | .one i => step s = exec i s
      | .two _ => forbidden (s.pc + 1) = true → step s = .fault (.restrictedRegion (s.pc + 1))
      | .three _ =>
        (forbidden (s.pc + 1) = true → step s = .fault (.restrictedRegion (s.pc + 1))) ∧
        (forbidden (s.pc + 1) = false → forbidden (s.pc + 2) = true → step s = .fault (.restrictedRegion (s.pc + 2)))

/-- R246, R248: precise faults and a latch that no event clears (decision D16; log 9). Marked: the host moves among the events are log 12, and those of a halted machine log 27. -/
def Obligations.FaultsLatchAndHaltForGood : Prop :=
  ∀ s : State,
    (∀ f, step s = .fault f → ∃ k, f.kind = some k ∧ stepLatched s = { s with latch := some k }) ∧
    (∀ k, s.latch = some k → step s = .refused (.halted k) ∧
      ∀ events : List Event, (events.foldl (fun t e => act e t) s).latch = some k)

/-- R9, R240: executing an instruction gives a next state or a fault of the spec; the model refuses none. Marked: the operand forms that have no meaning are unreachable: log 26. -/
def Obligations.ExecutionNeverRefuses : Prop :=
  ∀ (i : Instr) (s : State) (r : Refusal), exec i s ≠ .refused r

/-- R241 and R243: the causes of a fault during execution, and the forms that cannot raise one. Marked: that BRK fails at decode is decision D17: log 14; the address or byte a fault carries is decision D29: log 23; the definitions of the simple modes are decision D26: log 20. -/
def Obligations.ExecutionFaultsAreBrkOrForbiddenAccesses : Prop :=
  ∀ (i : Instr) (s : State) (f : Fault), exec i s = .fault f →
    (i = .brk ∧ f = .notImplemented) ∨
      ((∃ p, f = .restrictedRegion p ∧ 0x4018 ≤ p.toNat ∧ p.toNat ≤ 0x401F) ∧
        i.operand.format ∈ [.abs, .abx, .aby, .ind, .izx, .izy] ∧ (∀ w, i ≠ .jsr w) ∧ ∀ w, i ≠ .jmpAbs w)

/-- R241: these forms read and write only registers, the zero page and the stack, so that they always complete. Marked: the definitions of the simple modes are decision D26: log 20; that the stack page lies in RAM for every parameter value is log 5. -/
def Obligations.FormsWithoutForbiddenAccessComplete : Prop :=
  ∀ (i : Instr) (s : State), i ≠ .brk →
    (i.operand.format ∈ [.imp, .acc, .imm, .rel, .zp, .zpx, .zpy] ∨ (∃ w, i = .jsr w) ∨ ∃ w, i = .jmpAbs w) →
    ∃ t, exec i s = .next t

/-- The invariant of the storage, kept by every instruction from every state (log 3, 11). -/
def Obligations.StepKeepsTheStorageCanonical : Prop :=
  ∀ s t : State, Inv s → step s = .next t → Inv t

/-- The invariant at power-on, for reset and for every canonical `INIT_MEM` (log 3). -/
def Obligations.PowerOnStorageIsCanonical : Prop :=
  Inv State.reset ∧ ∀ l : Launch, l.mem.wf = true → Inv (State.launch l)

/-- The invariant under the second agent (R4, R57, R58; log 12). Marked: the canonical list is the model's own: log 3, 11; which host moves an open run has is log 12, and on a halted machine log 27. -/
def Obligations.EventsAndBootMovesKeepTheStorageCanonical : Prop :=
  ∀ s : State, Inv s → (∀ e, Inv (act e s)) ∧ ∀ h t, bootMove h s = .next t → Inv t

/-- R28: `B` steers nothing and no instruction writes it, over all instructions and states. Marked: that State keeps the flag is the model's choice, decision D25: log 21. -/
def Obligations.BreakFlagIsInert : Prop :=
  ∀ (s : State) (e : Bool), step (setFlag .b e s) = mapNext (setFlag .b e) (step s)

/-- R23, R136 (8): `D` is stored and never affects arithmetic or anything else but the byte PHP pushes. Marked: what the mnemonics name is general knowledge G3, G5, G7: log 8; the extension set is general knowledge G6: log 22. -/
def Obligations.DecimalModeSteersNothing : Prop :=
  ∀ (i : Instr) (s : State) (e : Bool),
    (i.mnemonic ∉ [.php, .plp, .rti, .cld, .sed] → exec i (setFlag .d e s) = mapNext (setFlag .d e) (exec i s)) ∧
    (i.mnemonic ∈ [.plp, .rti, .cld, .sed] → exec i (setFlag .d e s) = exec i s)

/-- R249: `I` masks nothing; only the byte PHP pushes shows it. Marked: what the mnemonics name is general knowledge G3, G5, G7: log 8. -/
def Obligations.InterruptDisableSteersNothing : Prop :=
  ∀ (i : Instr) (s : State) (e : Bool),
    (i.mnemonic ∉ [.php, .plp, .rti, .cli, .sei] → exec i (setFlag .i e s) = mapNext (setFlag .i e) (exec i s)) ∧
    (i.mnemonic ∈ [.plp, .rti, .cli, .sei] → exec i (setFlag .i e s) = exec i s)

/-- The frame of every register, by the "written by" column of R20. The parameters are constant by R5 and R220; that they stand in `State.cfg` is the model's choice (log 24), as is that the latch is set outside `exec` (log 9). Marked: what the mnemonics name is general knowledge G3, G5, G7: log 8; the extension set is general knowledge G6: log 22. -/
def Obligations.RegistersChangeOnlyByTheirWriters : Prop :=
  ∀ (i : Instr) (s t : State), exec i s = .next t →
    (t.a ≠ s.a → i.mnemonic ∈ [.ora, .and, .eor, .adc, .sbc, .lda, .txa, .tya, .pla] ∨ i.operand = .acc) ∧
    (t.x ≠ s.x → i.mnemonic ∈ [.ldx, .tax, .inx, .dex, .tsx]) ∧
    (t.y ≠ s.y → i.mnemonic ∈ [.ldy, .tay, .iny, .dey]) ∧
    (t.sp ≠ s.sp → i.mnemonic ∈ [.pha, .php, .jsr, .pla, .plp, .rts, .rti, .txs]) ∧
    t.latch = s.latch ∧ t.cfg = s.cfg

/-- The frame of every flag: the matrix of R24, with the extension's rows. Marked: what the mnemonics name is general knowledge G3, G5, G7: log 8; the extension set is general knowledge G6: log 22; that the rotates set Z and N is decision D10: log 16. -/
def Obligations.FlagsChangeOnlyAsTheMatrixSays : Prop :=
  ∀ (i : Instr) (s t : State), exec i s = .next t →
    (t.flags.c ≠ s.flags.c → i.mnemonic ∈
      [.adc, .sbc, .cmp, .cpx, .cpy, .asl, .lsr, .rol, .ror, .plp, .rti, .clc, .sec]) ∧
    (t.flags.z ≠ s.flags.z ∨ t.flags.n ≠ s.flags.n → i.mnemonic ∈
      [.ora, .and, .eor, .bit, .adc, .sbc, .cmp, .cpx, .cpy, .asl, .lsr, .rol, .ror, .inc, .dec, .inx, .dex, .iny, .dey,
       .lda, .ldx, .ldy, .tax, .txa, .tay, .tya, .tsx, .pla, .plp, .rti]) ∧
    (t.flags.i ≠ s.flags.i → i.mnemonic ∈ [.plp, .rti, .cli, .sei]) ∧
    (t.flags.d ≠ s.flags.d → i.mnemonic ∈ [.plp, .rti, .cld, .sed]) ∧
    t.flags.b = s.flags.b ∧
    (t.flags.v ≠ s.flags.v → i.mnemonic ∈ [.adc, .sbc, .bit, .plp, .rti, .clv]) ∧
    (t.flags.v = true → s.flags.v = true ∨ i.mnemonic ∈ [.adc, .sbc, .bit, .plp, .rti])

/-- The frame of memory (R65, R110): `storedAddrs` computes the addresses with `resolve` and `stackAddr`, as the meanings do. Marked: what the mnemonics name is general knowledge G3, G5, G7: log 8; one write of a read-modify-write is decision D28: log 19; that cartridge bytes store is decision D18: log 18; the canonical list is log 3, 11. -/
def Obligations.MemoryChangesOnlyWhereTheInstructionStores : Prop :=
  ∀ (i : Instr) (s t : State), Inv s → exec i s = .next t →
    ∀ p : Addr, (∀ w ∈ storedAddrs i s, Apart p w) → memRead p t = memRead p s

/-- R120 - R122, for every form; exactly A, Z, N and pc change. Marked: what the mnemonics name is general knowledge G3, G5, G7: log 8; instruction lengths are general knowledge G1: log 7. -/
def Obligations.LogicalInstructionsCompute : Prop :=
  ∀ (i : Instr) (s : State),
    (∀ m, operandValue i.operand s = .next m →
      (i.mnemonic = .ora → exec i s = .next { s with a := s.a ||| m, flags := zeroNegative (s.a ||| m) s.flags, pc := s.pc + BitVec.ofNat 16 i.len }) ∧
      (i.mnemonic = .and → exec i s = .next { s with a := s.a &&& m, flags := zeroNegative (s.a &&& m) s.flags, pc := s.pc + BitVec.ofNat 16 i.len }) ∧
      (i.mnemonic = .eor → exec i s = .next { s with a := s.a ^^^ m, flags := zeroNegative (s.a ^^^ m) s.flags, pc := s.pc + BitVec.ofNat 16 i.len })) ∧
    (∀ f, operandValue i.operand s = .fault f → i.mnemonic ∈ [.ora, .and, .eor] → exec i s = .fault f)

/-- R123: the one instruction whose N is not bit 7 of its result. Marked: instruction lengths are general knowledge G1: log 7. -/
def Obligations.BitTestTakesNegativeAndOverflowFromTheOperand : Prop :=
  ∀ (i : Instr) (s : State), i.mnemonic = .bit →
    (∀ m, operandValue i.operand s = .next m →
      exec i s = .next { s with flags := { s.flags with z := decide (s.a &&& m = 0#8), n := m.getLsbD 7, v := m.getLsbD 6 }, pc := s.pc + BitVec.ofNat 16 i.len }) ∧
    (∀ f, operandValue i.operand s = .fault f → exec i s = .fault f)

/-- R130, R131: the spec's adder over the natural numbers; V is the document's sign-change approximation, not the exact overflow. The Carry addend is decision D8 (log 16). Marked: that V is the sign change and not the exact overflow is the reading of conflict C5: log 15; instruction lengths are general knowledge G1: log 7. -/
def Obligations.AddWithCarryAddsInBinary : Prop :=
  ∀ (i : Instr) (s : State), i.mnemonic = .adc →
    (∀ m, operandValue i.operand s = .next m →
      let sum := s.a.toNat + m.toNat + (if s.flags.c then 1 else 0)
      let r := BitVec.ofNat 8 sum
      exec i s = .next { s with
        a := r
        flags := zeroNegative r
          { s.flags with c := decide (255 < sum), v := decide (r.getLsbD 7 ≠ s.a.getLsbD 7) }
        pc := s.pc + BitVec.ofNat 16 i.len }) ∧
    (∀ f, operandValue i.operand s = .fault f → exec i s = .fault f)

/-- R221, in its equivalent form over the integers rather than as ADC of the complement (log 22). Marked: that V is the sign change is the reading of conflict C5: log 15; instruction lengths are general knowledge G1: log 7. -/
def Obligations.SubtractBorrowsWhenCarryIsClear : Prop :=
  ∀ (i : Instr) (s : State), i.mnemonic = .sbc →
    (∀ m, operandValue i.operand s = .next m →
      let diff : Int := (s.a.toNat : Int) - (m.toNat : Int) - (if s.flags.c then 0 else 1)
      let r := BitVec.ofInt 8 diff
      exec i s = .next { s with
        a := r
        flags := zeroNegative r { s.flags with c := decide (0 ≤ diff), v := decide (r.getLsbD 7 ≠ s.a.getLsbD 7) }
        pc := s.pc + BitVec.ofNat 16 i.len }) ∧
    (∀ f, operandValue i.operand s = .fault f → exec i s = .fault f)

/-- R132 - R135 (direction: decision D9, log 16). Marked: what the mnemonics name is general knowledge G3, G5, G7: log 8; instruction lengths are general knowledge G1: log 7. -/
def Obligations.ComparesSetFlagsOnly : Prop :=
  ∀ (i : Instr) (s : State) (reg : Byte),
    (i.mnemonic = .cmp ∧ reg = s.a) ∨ (i.mnemonic = .cpx ∧ reg = s.x) ∨ (i.mnemonic = .cpy ∧ reg = s.y) →
    (∀ m, operandValue i.operand s = .next m →
      exec i s = .next { s with
        flags := zeroNegative (reg - m) { s.flags with c := decide (m.toNat ≤ reg.toNat) }
        pc := s.pc + BitVec.ofNat 16 i.len }) ∧
    (∀ f, operandValue i.operand s = .fault f → exec i s = .fault f)

/-- R140 - R145, accumulator form, the shifts written as moves of bits (the rotates' Z and N: log 16; ACC: decision D26, log 20). Marked: instruction lengths are general knowledge G1: log 7. -/
def Obligations.AccumulatorShiftsCompute : Prop :=
  ∀ (i : Instr) (s : State), i.operand = .acc →
    ∃ r c, shiftSpec i.mnemonic s.a s.flags.c = some (r, c) ∧
      exec i s = .next { s with a := r, flags := zeroNegative r { s.flags with c := c }, pc := s.pc + 1 }

/-- R140 - R145, memory form (log 16 for the rotates' Z and N). Marked: that the rotates set Z and N is decision D10: log 16; one read and one write is decision D28: log 19; that a cartridge byte stores is decision D18: log 18; instruction lengths are general knowledge G1: log 7. -/
def Obligations.MemoryShiftsCompute : Prop :=
  ∀ (i : Instr) (s : State) (ea : Addr) (k : Nat) (r : Byte) (c : Bool),
    resolve i.operand s = .next (.addr ea) → cellOf ea = some k →
    shiftSpec i.mnemonic (s.mem.read k) s.flags.c = some (r, c) →
    exec i s = .next { s with
      mem := s.mem.write k r
      flags := zeroNegative r { s.flags with c := c }
      pc := s.pc + BitVec.ofNat 16 i.len }

/-- R140, its derived sentence on rotations through Carry. -/
def Obligations.RotatesAreNineBitRotations : Prop :=
  (∀ (m : Byte) (c : Bool), (BitVec.ofBool (rol m c).2 ++ (rol m c).1 : BitVec 9) = (BitVec.ofBool c ++ m : BitVec 9).rotateLeft 1) ∧
    (∀ (m : Byte) (c : Bool), (BitVec.ofBool (ror m c).2 ++ (ror m c).1 : BitVec 9) = (BitVec.ofBool c ++ m : BitVec 9).rotateRight 1) ∧
    (∀ p : Byte × Bool, Nat.repeat (fun q : Byte × Bool => rol q.1 q.2) 9 p = p) ∧
    (∀ p : Byte × Bool, Nat.repeat (fun q : Byte × Bool => ror q.1 q.2) 9 p = p)

/-- R150, R151 (which adds and which subtracts: log 8). Marked: one read and one write is decision D28: log 19; that a cartridge byte stores is decision D18: log 18; instruction lengths are general knowledge G1: log 7. -/
def Obligations.MemoryIncrementsAndDecrementsCompute : Prop :=
  ∀ (i : Instr) (s : State) (ea : Addr) (k : Nat),
    resolve i.operand s = .next (.addr ea) → cellOf ea = some k →
    (i.mnemonic = .inc →
      let r := BitVec.ofNat 8 ((s.mem.read k).toNat + 1)
      exec i s = .next { s with mem := s.mem.write k r, flags := zeroNegative r s.flags, pc := s.pc + BitVec.ofNat 16 i.len }) ∧
    (i.mnemonic = .dec →
      let r := BitVec.ofNat 8 ((s.mem.read k).toNat + 255)
      exec i s = .next { s with mem := s.mem.write k r, flags := zeroNegative r s.flags, pc := s.pc + BitVec.ofNat 16 i.len })

/-- R152 - R155 (opcode bytes: log 7; what the mnemonics name: log 8). -/
def Obligations.RegisterIncrementsAndDecrements : Prop :=
  (encode .inx = [0xE8#8] ∧
      RunsAs .inx fun s => { s with x := s.x + 1, flags := zeroNegative (s.x + 1) s.flags, pc := s.pc + 1 }) ∧
    (encode .dex = [0xCA#8] ∧
      RunsAs .dex fun s => { s with x := s.x - 1, flags := zeroNegative (s.x - 1) s.flags, pc := s.pc + 1 }) ∧
    (encode .iny = [0xC8#8] ∧
      RunsAs .iny fun s => { s with y := s.y + 1, flags := zeroNegative (s.y + 1) s.flags, pc := s.pc + 1 }) ∧
    (encode .dey = [0x88#8] ∧
      RunsAs .dey fun s => { s with y := s.y - 1, flags := zeroNegative (s.y - 1) s.flags, pc := s.pc + 1 })

/-- R160 - R162 (which register a mnemonic names: log 8). Marked: instruction lengths are general knowledge G1: log 7. -/
def Obligations.LoadsCompute : Prop :=
  ∀ (i : Instr) (s : State),
    (∀ m, operandValue i.operand s = .next m →
      (i.mnemonic = .lda → exec i s = .next { s with a := m, flags := zeroNegative m s.flags, pc := s.pc + BitVec.ofNat 16 i.len }) ∧
      (i.mnemonic = .ldx → exec i s = .next { s with x := m, flags := zeroNegative m s.flags, pc := s.pc + BitVec.ofNat 16 i.len }) ∧
      (i.mnemonic = .ldy → exec i s = .next { s with y := m, flags := zeroNegative m s.flags, pc := s.pc + BitVec.ofNat 16 i.len })) ∧
    (∀ f, operandValue i.operand s = .fault f → i.mnemonic ∈ [.lda, .ldx, .ldy] → exec i s = .fault f)

/-- R163 - R165 (which register a mnemonic names: log 8); every form of a store resolves, and the one that resolves into the forbidden region faults (`ForbiddenRegionFailsForEveryAccess`) (log 18). Marked: instruction lengths are general knowledge G1: log 7. -/
def Obligations.StoresCompute : Prop :=
  ∀ (i : Instr) (s : State) (reg : Byte),
    (i.mnemonic = .sta ∧ reg = s.a) ∨ (i.mnemonic = .stx ∧ reg = s.x) ∨ (i.mnemonic = .sty ∧ reg = s.y) →
    ∃ ea, resolve i.operand s = .next (.addr ea) ∧
      ∀ k, cellOf ea = some k → exec i s = .next { s with mem := s.mem.write k reg, pc := s.pc + BitVec.ofNat 16 i.len }

/-- R166 - R169 (opcode bytes: log 7; source and destination: log 8). -/
def Obligations.TransfersCopyAndSetZeroNegative : Prop :=
  (encode .tax = [0xAA#8] ∧ RunsAs .tax fun s => { s with x := s.a, flags := zeroNegative s.a s.flags, pc := s.pc + 1 }) ∧
    (encode .txa = [0x8A#8] ∧ RunsAs .txa fun s => { s with a := s.x, flags := zeroNegative s.x s.flags, pc := s.pc + 1 }) ∧
    (encode .tay = [0xA8#8] ∧ RunsAs .tay fun s => { s with y := s.a, flags := zeroNegative s.a s.flags, pc := s.pc + 1 }) ∧
    (encode .tya = [0x98#8] ∧ RunsAs .tya fun s => { s with a := s.y, flags := zeroNegative s.y s.flags, pc := s.pc + 1 })

/-- R180 - R186, R222, R223, the target over the integers (conditions: log 8, 22; REL and the wrap of `pc`: decisions D26, D20, log 20). -/
def Obligations.BranchesCommitTargetOrFallThrough : Prop :=
  ∀ (off : Byte) (s : State),
    let taken := BitVec.ofInt 16 ((s.pc.toNat : Int) + 2 + (if off.toNat < 128 then (off.toNat : Int) else (off.toNat : Int) - 256))
    let next := BitVec.ofNat 16 (s.pc.toNat + 2)
    exec (.bpl off) s = .next { s with pc := if s.flags.n = false then taken else next } ∧
    exec (.bmi off) s = .next { s with pc := if s.flags.n = true then taken else next } ∧
    exec (.bvc off) s = .next { s with pc := if s.flags.v = false then taken else next } ∧
    exec (.bvs off) s = .next { s with pc := if s.flags.v = true then taken else next } ∧
    exec (.bcc off) s = .next { s with pc := if s.flags.c = false then taken else next } ∧
    exec (.bcs off) s = .next { s with pc := if s.flags.c = true then taken else next } ∧
    exec (.bne off) s = .next { s with pc := if s.flags.z = false then taken else next } ∧
    exec (.beq off) s = .next { s with pc := if s.flags.z = true then taken else next }

/-- R190, R191, the stack slot as a RAM cell (`stackCell`) (opcode bytes: log 7; which pushes and which pulls: log 8). -/
def Obligations.PushAndPullAccumulator : Prop :=
  (encode .pha = [0x48#8] ∧
      RunsAs .pha fun s => { s with mem := s.mem.write (stackCell s.cfg s.sp) s.a, sp := s.sp - 1, pc := s.pc + 1 }) ∧
    (encode .pla = [0x68#8] ∧
      RunsAs .pla fun s =>
        { s with
          a := s.mem.read (stackCell s.cfg (s.sp + 1))
          sp := s.sp + 1
          flags := zeroNegative (s.mem.read (stackCell s.cfg (s.sp + 1))) s.flags
          pc := s.pc + 1 })

/-- R192, R193, with R193's round-trip law (opcode bytes: log 7; which pushes and which pulls: log 8). -/
def Obligations.PushAndPullStatus : Prop :=
  (encode .php = [0x08#8] ∧
      RunsAs .php fun s =>
        { s with
          mem := s.mem.write (stackCell s.cfg s.sp) (BitVec.ofNat 8
            ((if s.flags.n then 128 else 0) + (if s.flags.v then 64 else 0) + 32 + 16 + (if s.flags.d then 8 else 0) +
              (if s.flags.i then 4 else 0) + (if s.flags.z then 2 else 0) + (if s.flags.c then 1 else 0)))
          sp := s.sp - 1
          pc := s.pc + 1 }) ∧
    (encode .plp = [0x28#8] ∧
      RunsAs .plp fun s =>
        let v := s.mem.read (stackCell s.cfg (s.sp + 1))
        { s with
          flags := { n := v.getLsbD 7, v := v.getLsbD 6, b := s.flags.b, d := v.getLsbD 3, i := v.getLsbD 2,
                     z := v.getLsbD 1, c := v.getLsbD 0 }
          sp := s.sp + 1
          pc := s.pc + 1 }) ∧
    (∀ s : State, ∃ t u, exec .php s = .next t ∧ exec .plp t = .next u ∧ u.flags = s.flags ∧ u.sp = s.sp)

/-- R194 with R101 and R104 (no page wrap: decision D14, log 15; low byte first, ABS and IND: decisions D22, D26, log 20). Marked: which of two forbidden pointer bytes is named is decisions D15 and D19: log 19; the address or byte a fault carries is decision D29: log 23; the wrap of p + 1 is decision D14: log 15. -/
def Obligations.JumpsCommitTheirTarget : Prop :=
  (∀ (w : Addr) (s : State), exec (.jmpAbs w) s = .next { s with pc := w }) ∧
    (∀ (p : Addr) (s : State) (lo hi : Byte), memRead p s = .next lo → memRead (p + 1) s = .next hi →
      exec (.jmpInd p) s = .next { s with pc := BitVec.ofNat 16 (hi.toNat * 256 + lo.toNat) }) ∧
    (∀ (p : Addr) (s : State), forbidden p = true → exec (.jmpInd p) s = .fault (.restrictedRegion p)) ∧
    (∀ (p : Addr) (s : State), forbidden p = false → forbidden (p + 1) = true →
      exec (.jmpInd p) s = .fault (.restrictedRegion (p + 1)))

/-- R195 (order of the pushes: decision D12, log 17; ABS: decision D26, log 20). -/
def Obligations.JsrPushesTheReturnAddressMinusOne : Prop :=
  ∀ (w : Addr) (s : State),
    let r := (s.pc.toNat + 2) % 65536
    exec (.jsr w) s = .next { s with
      mem := (s.mem.write (stackCell s.cfg s.sp) (BitVec.ofNat 8 (r / 256))).write (stackCell s.cfg (s.sp - 1)) (BitVec.ofNat 8 r)
      sp := s.sp - 2
      pc := w }

/-- R196 (pop order: decision D12; log 17). -/
def Obligations.RtsReturnsToThePoppedAddressPlusOne : Prop :=
  ∀ s : State,
    let lo := s.mem.read (stackCell s.cfg (s.sp + 1))
    let hi := s.mem.read (stackCell s.cfg (s.sp + 2))
    exec .rts s = .next { s with sp := s.sp + 2, pc := BitVec.ofNat 16 (hi.toNat * 256 + lo.toNat + 1) }

/-- R197, R250 (the plus one: decision D13, log 15; low byte before high: decision D12, log 17). -/
def Obligations.RtiRestoresStatusThenReturnsPlusOne : Prop :=
  ∀ s : State,
    let v := s.mem.read (stackCell s.cfg (s.sp + 1))
    let lo := s.mem.read (stackCell s.cfg (s.sp + 2))
    let hi := s.mem.read (stackCell s.cfg (s.sp + 3))
    exec .rti s = .next { s with
      flags := { n := v.getLsbD 7, v := v.getLsbD 6, b := s.flags.b, d := v.getLsbD 3, i := v.getLsbD 2,
                 z := v.getLsbD 1, c := v.getLsbD 0 }
      sp := s.sp + 3
      pc := BitVec.ofNat 16 (hi.toNat * 256 + lo.toNat + 1) }

/-- The round-trip law of R196, with its frame. Marked: the law holds for either order of the bytes: log 17; the canonical list is log 3, 11. -/
def Obligations.JsrThenRtsReturnsAfterTheCall : Prop :=
  ∀ (w : Addr) (s : State), Inv s →
    ∃ t u, exec (.jsr w) s = .next t ∧ exec .rts t = .next u ∧ u.pc = s.pc + 3 ∧ u.sp = s.sp ∧
      u.a = s.a ∧ u.x = s.x ∧ u.y = s.y ∧ u.flags = s.flags ∧
      ∀ p, Apart p (stackAddr s.cfg s.sp) → Apart p (stackAddr s.cfg (s.sp - 1)) → memRead p u = memRead p s

/-- R210 - R214 (opcode bytes: log 7; which flag a mnemonic names: log 8). -/
def Obligations.FlagInstructionsChangeOneFlag : Prop :=
  (encode .clc = [0x18#8] ∧ RunsAs .clc fun s => { s with flags := { s.flags with c := false }, pc := s.pc + 1 }) ∧
    (encode .sec = [0x38#8] ∧ RunsAs .sec fun s => { s with flags := { s.flags with c := true }, pc := s.pc + 1 }) ∧
    (encode .cli = [0x58#8] ∧ RunsAs .cli fun s => { s with flags := { s.flags with i := false }, pc := s.pc + 1 }) ∧
    (encode .sei = [0x78#8] ∧ RunsAs .sei fun s => { s with flags := { s.flags with i := true }, pc := s.pc + 1 }) ∧
    (encode .clv = [0xB8#8] ∧ RunsAs .clv fun s => { s with flags := { s.flags with v := false }, pc := s.pc + 1 })

/-- R224 - R228 (log 22). Marked: the opcode bytes are general knowledge G1: log 7; the gate of the extension set is decision D1: log 6. -/
def Obligations.ExtensionOneByteInstructions : Prop :=
  (encode .tsx = [0xBA#8] ∧ RunsAs .tsx fun s => { s with x := s.sp, flags := zeroNegative s.sp s.flags, pc := s.pc + 1 }) ∧
    (encode .txs = [0x9A#8] ∧ RunsAs .txs fun s => { s with sp := s.x, pc := s.pc + 1 }) ∧
    (encode .cld = [0xD8#8] ∧ RunsAs .cld fun s => { s with flags := { s.flags with d := false }, pc := s.pc + 1 }) ∧
    (encode .sed = [0xF8#8] ∧ RunsAs .sed fun s => { s with flags := { s.flags with d := true }, pc := s.pc + 1 }) ∧
    (encode .nop = [0xEA#8] ∧ RunsAs .nop fun s => { s with pc := s.pc + 1 })

/-- R215 (log 9, 14). Marked: that BRK is byte 0x00 is general knowledge G1: log 7. -/
def Obligations.BrkAlwaysRaisesNotImplemented : Prop :=
  (∀ s : State, exec .brk s = .fault .notImplemented) ∧
    (∀ s : State, s.latch = none → memRead s.pc s = .next 0x00#8 →
      step s = .fault .notImplemented ∧ stepLatched s = { s with latch := some .notImplemented })

/-- R243 with R248 (the halted machine: log 9; the byte 0x00: log 7; the fault at decode: log 14). -/
def Obligations.NotImplementedIsRaisedByByteZeroOnly : Prop :=
  ∀ s : State, step s = .fault .notImplemented ↔ s.latch = none ∧ memRead s.pc s = .next 0x00#8

/-- R53. -/
def Obligations.PushStoresThenDecrements : Prop :=
  ∀ (v : Byte) (s : State),
    push v s = .next { s with mem := s.mem.write (stackCell s.cfg s.sp) v, sp := BitVec.ofNat 8 (s.sp.toNat + 255) } ∧
      cellOf (stackAddr s.cfg s.sp) = some (stackCell s.cfg s.sp)

/-- The round-trip law of R54, for every start of the stack pointer. Marked: that the stack page lies in RAM for every parameter value is log 5; the canonical list is log 3, 11. -/
def Obligations.PushesPopBackInReverse : Prop :=
  ∀ (bytes : List Byte) (s : State), Inv s → bytes.length ≤ 256 →
    ∃ t u, pushAll bytes s = .next t ∧ popMany bytes.length t = .next (bytes.reverse, u) ∧
      u.sp = s.sp ∧ u.a = s.a ∧ u.x = s.x ∧ u.y = s.y ∧ u.pc = s.pc ∧ u.flags = s.flags ∧ u.mem = t.mem

/-- R46; the absence of every other alias follows from R41 and R42 (log 11) and is said of routes, by `Apart`, which `WritesStoreOneByteAndReadsSeeIt` carries to bytes. -/
def Obligations.MirroredAddressesShareTheirByte : Prop :=
  (∀ (p q : Addr) (v : Byte) (s t : State), Inv s → memWrite p v s = .next t →
      (p.toNat < 0x2000 → q.toNat < 0x2000 → q.toNat % 0x0800 = p.toNat % 0x0800 → memRead q t = .next v) ∧
      (0x2000 ≤ p.toNat → p.toNat ≤ 0x3FFF → 0x2000 ≤ q.toNat → q.toNat ≤ 0x3FFF → q.toNat % 8 = p.toNat % 8 →
        memRead q t = .next v)) ∧
    (∀ p q : Addr, forbidden p = false →
      Apart p q ∨ p = q ∨ (p.toNat < 0x2000 ∧ q.toNat < 0x2000 ∧ p.toNat % 0x0800 = q.toNat % 0x0800) ∨
        (0x2000 ≤ p.toNat ∧ p.toNat ≤ 0x3FFF ∧ 0x2000 ≤ q.toNat ∧ q.toNat ≤ 0x3FFF ∧ p.toNat % 8 = q.toNat % 8))

/-- R42. -/
def Obligations.RouteFollowsTheRegionMap : Prop :=
  ∀ p : Addr,
    (p.toNat ≤ 0x1FFF → route p = .ram (p.toNat % 0x0800)) ∧
    (0x2000 ≤ p.toNat → p.toNat ≤ 0x3FFF → route p = .preg (p.toNat % 8)) ∧
    (0x4000 ≤ p.toNat → p.toNat ≤ 0x4017 → route p = .preg2 (p.toNat - 0x4000)) ∧
    (0x4018 ≤ p.toNat → p.toNat ≤ 0x401F → route p = .forbidden) ∧
    (0x4020 ≤ p.toNat → route p = .cart (p.toNat - 0x4020))

/-- R45, access kind by access kind, and that stack accesses are in RAM (order of accesses: log 19; the pointer of JMP: log 15; host moves: log 12). Marked: the address or byte a fault carries is decision D29: log 23; the wrap of pc is decision D20: log 20. -/
def Obligations.ForbiddenRegionFailsForEveryAccess : Prop :=
  ∀ (p : Addr) (s : State), 0x4018 ≤ p.toNat → p.toNat ≤ 0x401F →
    memRead p s = .fault (.restrictedRegion p) ∧
    (∀ v, memWrite p v s = .fault (.restrictedRegion p)) ∧
    (s.latch = none → s.pc = p → step s = .fault (.restrictedRegion p)) ∧
    (∀ op f, s.latch = none → memRead s.pc s = .next op → s.pc + 1 = p →
      (tableEntry s.cfg.extOfficial op = .two f → step s = .fault (.restrictedRegion p))) ∧
    (∀ op f, s.latch = none → memRead s.pc s = .next op → tableEntry s.cfg.extOfficial op = .three f →
      (s.pc + 1 = p ∨ (s.pc + 2 = p ∧ forbidden (s.pc + 1) = false)) → step s = .fault (.restrictedRegion p)) ∧
    exec (.jmpInd p) s = .fault (.restrictedRegion p) ∧
    (forbidden (p - 1) = false → exec (.jmpInd (p - 1)) s = .fault (.restrictedRegion p)) ∧
    (∀ i, resolve i.operand s = .next (.addr p) → i.mnemonic ∉ [.jmp, .jsr] → exec i s = .fault (.restrictedRegion p)) ∧
    (∀ v, bootMove (.write p v) s = .fault (.restrictedRegion p)) ∧
    (∀ v, s.cfg.collaborators = true → runMove (.write p v) s = .fault (.restrictedRegion p)) ∧
    (∀ q, ∃ k, route (stackAddr s.cfg q) = .ram k)

/-- R43, R44: read after write (cartridge writes: decision D18, log 18). Marked: one cell for all aliases is log 11; the canonical list is log 3. -/
def Obligations.WritesStoreOneByteAndReadsSeeIt : Prop :=
  ∀ (p : Addr) (v : Byte) (s : State),
    ((∃ t, memWrite p v s = .next t) ↔ forbidden p = false) ∧
    (Inv s → ∀ t, memWrite p v s = .next t →
      memRead p t = .next v ∧ (∀ q, Apart q p → memRead q t = memRead q s) ∧ t = { s with mem := t.mem })

/-- R57, R244 (decision D30; log 25). Marked: the canonical list is log 3, 11. -/
def Obligations.ProgramLoadFillsTheCartridge : Prop :=
  ∀ (bytes : List Byte) (s : State), Inv s →
    (bytes.length ≤ 0xBFE0 → ∃ t, loadProgram bytes s = .next t ∧ t = { s with mem := t.mem } ∧
      (∀ k v, bytes[k]? = some v → memRead (BitVec.ofNat 16 (0x4020 + k)) t = .next v) ∧
      (∀ p : Addr, p.toNat < 0x4020 ∨ 0x4020 + bytes.length ≤ p.toNat → memRead p t = memRead p s)) ∧
    (0xBFE0 < bytes.length → loadProgram bytes s = .fault .programTooLarge)

/-- R98 - R100, R102, R103 (the pairing of ZPY with LDX and STX: log 7; plain ZP: decision D26, log 20). -/
def Obligations.IndexedModesWrapWhereTheSpecSays : Prop :=
  (∀ (b : Byte) (s : State), resolve (.zp b) s = .next (.addr (BitVec.ofNat 16 b.toNat))) ∧
    (∀ (b : Byte) (s : State), resolve (.zpx b) s = .next (.addr (BitVec.ofNat 16 ((b.toNat + s.x.toNat) % 256)))) ∧
    (∀ (b : Byte) (s : State), resolve (.zpy b) s = .next (.addr (BitVec.ofNat 16 ((b.toNat + s.y.toNat) % 256)))) ∧
    (∀ (w : Addr) (s : State), resolve (.abx w) s = .next (.addr (BitVec.ofNat 16 (w.toNat + s.x.toNat)))) ∧
    (∀ (w : Addr) (s : State), resolve (.aby w) s = .next (.addr (BitVec.ofNat 16 (w.toNat + s.y.toNat)))) ∧
    (∀ i : Instr, i.operand.format = .zpy → i.mnemonic = .ldx ∨ i.mnemonic = .stx)

/-- R105, the pointer little-endian by R49 (decision D22; log 20). -/
def Obligations.IndexedIndirectPointerStaysInTheZeroPage : Prop :=
  ∀ (b : Byte) (s : State),
    let z := (b.toNat + s.x.toNat) % 256
    ∃ lo hi, memRead (BitVec.ofNat 16 z) s = .next lo ∧ memRead (BitVec.ofNat 16 ((z + 1) % 256)) s = .next hi ∧
      resolve (.izx b) s = .next (.addr (BitVec.ofNat 16 (hi.toNat * 256 + lo.toNat)))

/-- R106, the pointer little-endian by R49 (decisions D22, D27; log 20). -/
def Obligations.IndirectIndexedAddsYToTheZeroPagePointer : Prop :=
  ∀ (b : Byte) (s : State),
    ∃ lo hi, memRead (BitVec.ofNat 16 b.toNat) s = .next lo ∧ memRead (BitVec.ofNat 16 ((b.toNat + 1) % 256)) s = .next hi ∧
      resolve (.izy b) s = .next (.addr (BitVec.ofNat 16 (hi.toNat * 256 + lo.toNat + s.y.toNat)))

/-- R108 with R96, R97, R101: when the operand of a reading instruction has a value (ACC, IMM and ABS: decision D26, log 20). Marked: the address or byte a fault carries is decision D29: log 23. -/
def Obligations.OperandValueIsTheByteItDesignates : Prop :=
  (∀ (v : Byte) (s : State), operandValue (.imm v) s = .next v) ∧
    (∀ s : State, operandValue .acc s = .next s.a) ∧
    (∀ (w : Addr) (s : State), resolve (.abs w) s = .next (.addr w)) ∧
    (∀ (o : Operand) (s : State) (ea : Addr), resolve o s = .next (.addr ea) →
      (∀ k, cellOf ea = some k → operandValue o s = .next (s.mem.read k)) ∧
      (forbidden ea = true → operandValue o s = .fault (.restrictedRegion ea)))

/-- R26, with its round-trip law. -/
def Obligations.UnpackStatusWritesSixFlags : Prop :=
  ∀ (v : Byte) (f g : Flags),
    unpackStatus v g = { n := v.getLsbD 7, v := v.getLsbD 6, b := g.b, d := v.getLsbD 3, i := v.getLsbD 2,
                         z := v.getLsbD 1, c := v.getLsbD 0 } ∧
    unpackStatus (v ^^^ 0x10#8) g = unpackStatus v g ∧ unpackStatus (v ^^^ 0x20#8) g = unpackStatus v g ∧
    ∀ ctx, unpackStatus (packStatus ctx f) g = { f with b := g.b }

/-- R25: the layout, bit 4 by the context alone (conflict C1). -/
def Obligations.PackedStatusLayout : Prop :=
  ∀ (ctx : PushContext) (f : Flags),
    (packStatus ctx f).getLsbD 7 = f.n ∧ (packStatus ctx f).getLsbD 6 = f.v ∧ (packStatus ctx f).getLsbD 5 = true ∧
    (packStatus ctx f).getLsbD 4 = decide (ctx = .instruction) ∧ (packStatus ctx f).getLsbD 3 = f.d ∧
    (packStatus ctx f).getLsbD 2 = f.i ∧ (packStatus ctx f).getLsbD 1 = f.z ∧ (packStatus ctx f).getLsbD 0 = f.c

/-- R33, R270. `pc`, `A`, `X`, `Y`, flags and memory at reset are the model's choice (log 1, 2, 3); SP 0xFF is decision D4 (log 4); the parameters are R5's values by decisions D1, D3, D21 (log 6, 5, 12), carried in `cfg` (log 24). -/
def Obligations.PowerOnState : Prop :=
  (∀ l : Launch, (State.launch l).sp = 0xFF#8 ∧ (State.launch l).latch = none ∧ (State.launch l).pc = l.pc ∧
      (State.launch l).a = l.a ∧ (State.launch l).x = l.x ∧ (State.launch l).y = l.y ∧ (State.launch l).flags = l.flags ∧
      (State.launch l).mem = l.mem ∧ (State.launch l).cfg = l.cfg) ∧
    State.reset =
      { a := 0x00#8, x := 0x00#8, y := 0x00#8, sp := 0xFF#8, pc := 0x4020#16,
        flags := { c := false, z := false, i := false, d := false, b := false, v := false, n := false },
        mem := [], latch := none, cfg := { extOfficial := false, stackPage := 0x01#5, collaborators := false } }

/-- The model's placing of an instruction (log 10). Marked: the gate of the extension set is decision D1: log 6; the byte values are general knowledge G1: log 7. -/
def Obligations.PlacedInstructionRunsNext : Prop :=
  ∀ (s : State) (nbits w : Nat) (i : Instr), Inv s → decodeTableWord nbits w = some i →
    step (s.withFetchWord nbits w) = exec i (s.withFetchWord nbits w) ∧
      (s.withFetchWord nbits w).a = s.a ∧ (s.withFetchWord nbits w).x = s.x ∧ (s.withFetchWord nbits w).y = s.y ∧
      (s.withFetchWord nbits w).sp = s.sp ∧ (s.withFetchWord nbits w).flags = s.flags

/-- R58 for every host move of a run (decision D21 and the model's choice of moves: log 12; on a halted machine: log 27; `cfg`: log 24). Marked: the address or byte a fault carries is decision D29: log 23. -/
def Obligations.HostMovesReachTheirRegisterSlotOrCartridgeOnly : Prop :=
  ∀ s : State,
    (s.cfg.collaborators = false → ∀ h, act (.host h) s = s) ∧
    (s.cfg.collaborators = true →
      (∀ (p : Addr) (v : Byte), 0x2000 ≤ p.toNat → p.toNat ≤ 0x4017 → runMove (.write p v) s = memWrite p v s) ∧
      (∀ (p : Addr) (v : Byte), 0x4018 ≤ p.toNat → p.toNat ≤ 0x401F →
        runMove (.write p v) s = .fault (.restrictedRegion p)) ∧
      (∀ (p : Addr) (v : Byte), p.toNat < 0x2000 ∨ 0x4020 ≤ p.toNat → runMove (.write p v) s = .refused .outsideSlots) ∧
      (∀ bytes, runMove (.loadProgram bytes) s = loadProgram bytes s) ∧
      (∀ t : Addr, runMove (.setPc t) s = .next { s with pc := t }) ∧
      (∀ (r : RegName) (v : Byte), ∃ t, runMove (.setReg r v) s = .next t ∧ getReg r t = v ∧
        (∀ q, q ≠ r → getReg q t = getReg q s) ∧ t.pc = s.pc ∧ t.flags = s.flags ∧ t.mem = s.mem) ∧
      (∀ (f : FlagName) (e : Bool), ∃ t, runMove (.setFlag f e) s = .next t ∧ getFlag f t = e ∧
        (∀ g, g ≠ f → getFlag g t = getFlag g s) ∧ t.pc = s.pc ∧ (∀ q, getReg q t = getReg q s) ∧ t.mem = s.mem) ∧
      (∀ h t, Inv s → runMove h s = .next t → t.latch = s.latch ∧ t.cfg = s.cfg ∧
        ∀ p : Addr,
          (p.toNat < 0x2000 → memRead p t = memRead p s) ∧
          ((∀ q v, h ≠ .write q v) → p.toNat < 0x4020 → memRead p t = memRead p s) ∧
          ((∀ bytes, h ≠ .loadProgram bytes) → 0x4018 ≤ p.toNat → memRead p t = memRead p s)))
end

