-- ==== Sys2Proof/Laws/State.lean ====
section
/-! SUPPORT. The small lemmas of the record updates and of sequencing: what each update leaves in each field. -/

namespace Sys2Proof.Machine

/-! ### One lemma per field per update -/

@[simp] theorem withA_a (v : Byte) (s : State) : (s.withA v).a = v := rfl
@[simp] theorem withA_x (v : Byte) (s : State) : (s.withA v).x = s.x := rfl
@[simp] theorem withA_y (v : Byte) (s : State) : (s.withA v).y = s.y := rfl
@[simp] theorem withA_sp (v : Byte) (s : State) : (s.withA v).sp = s.sp := rfl
@[simp] theorem withA_pc (v : Byte) (s : State) : (s.withA v).pc = s.pc := rfl
@[simp] theorem withA_flags (v : Byte) (s : State) : (s.withA v).flags = s.flags := rfl
@[simp] theorem withA_mem (v : Byte) (s : State) : (s.withA v).mem = s.mem := rfl
@[simp] theorem withA_latch (v : Byte) (s : State) : (s.withA v).latch = s.latch := rfl
@[simp] theorem withA_cfg (v : Byte) (s : State) : (s.withA v).cfg = s.cfg := rfl

@[simp] theorem withX_a (v : Byte) (s : State) : (s.withX v).a = s.a := rfl
@[simp] theorem withX_x (v : Byte) (s : State) : (s.withX v).x = v := rfl
@[simp] theorem withX_y (v : Byte) (s : State) : (s.withX v).y = s.y := rfl
@[simp] theorem withX_sp (v : Byte) (s : State) : (s.withX v).sp = s.sp := rfl
@[simp] theorem withX_pc (v : Byte) (s : State) : (s.withX v).pc = s.pc := rfl
@[simp] theorem withX_flags (v : Byte) (s : State) : (s.withX v).flags = s.flags := rfl
@[simp] theorem withX_mem (v : Byte) (s : State) : (s.withX v).mem = s.mem := rfl
@[simp] theorem withX_latch (v : Byte) (s : State) : (s.withX v).latch = s.latch := rfl
@[simp] theorem withX_cfg (v : Byte) (s : State) : (s.withX v).cfg = s.cfg := rfl

@[simp] theorem withY_a (v : Byte) (s : State) : (s.withY v).a = s.a := rfl
@[simp] theorem withY_x (v : Byte) (s : State) : (s.withY v).x = s.x := rfl
@[simp] theorem withY_y (v : Byte) (s : State) : (s.withY v).y = v := rfl
@[simp] theorem withY_sp (v : Byte) (s : State) : (s.withY v).sp = s.sp := rfl
@[simp] theorem withY_pc (v : Byte) (s : State) : (s.withY v).pc = s.pc := rfl
@[simp] theorem withY_flags (v : Byte) (s : State) : (s.withY v).flags = s.flags := rfl
@[simp] theorem withY_mem (v : Byte) (s : State) : (s.withY v).mem = s.mem := rfl
@[simp] theorem withY_latch (v : Byte) (s : State) : (s.withY v).latch = s.latch := rfl
@[simp] theorem withY_cfg (v : Byte) (s : State) : (s.withY v).cfg = s.cfg := rfl

@[simp] theorem withSP_a (v : Byte) (s : State) : (s.withSP v).a = s.a := rfl
@[simp] theorem withSP_x (v : Byte) (s : State) : (s.withSP v).x = s.x := rfl
@[simp] theorem withSP_y (v : Byte) (s : State) : (s.withSP v).y = s.y := rfl
@[simp] theorem withSP_sp (v : Byte) (s : State) : (s.withSP v).sp = v := rfl
@[simp] theorem withSP_pc (v : Byte) (s : State) : (s.withSP v).pc = s.pc := rfl
@[simp] theorem withSP_flags (v : Byte) (s : State) : (s.withSP v).flags = s.flags := rfl
@[simp] theorem withSP_mem (v : Byte) (s : State) : (s.withSP v).mem = s.mem := rfl
@[simp] theorem withSP_latch (v : Byte) (s : State) : (s.withSP v).latch = s.latch := rfl
@[simp] theorem withSP_cfg (v : Byte) (s : State) : (s.withSP v).cfg = s.cfg := rfl

@[simp] theorem withPC_a (v : Addr) (s : State) : (s.withPC v).a = s.a := rfl
@[simp] theorem withPC_x (v : Addr) (s : State) : (s.withPC v).x = s.x := rfl
@[simp] theorem withPC_y (v : Addr) (s : State) : (s.withPC v).y = s.y := rfl
@[simp] theorem withPC_sp (v : Addr) (s : State) : (s.withPC v).sp = s.sp := rfl
@[simp] theorem withPC_pc (v : Addr) (s : State) : (s.withPC v).pc = v := rfl
@[simp] theorem withPC_flags (v : Addr) (s : State) : (s.withPC v).flags = s.flags := rfl
@[simp] theorem withPC_mem (v : Addr) (s : State) : (s.withPC v).mem = s.mem := rfl
@[simp] theorem withPC_latch (v : Addr) (s : State) : (s.withPC v).latch = s.latch := rfl
@[simp] theorem withPC_cfg (v : Addr) (s : State) : (s.withPC v).cfg = s.cfg := rfl

@[simp] theorem withFlags_a (v : Flags) (s : State) : (s.withFlags v).a = s.a := rfl
@[simp] theorem withFlags_x (v : Flags) (s : State) : (s.withFlags v).x = s.x := rfl
@[simp] theorem withFlags_y (v : Flags) (s : State) : (s.withFlags v).y = s.y := rfl
@[simp] theorem withFlags_sp (v : Flags) (s : State) : (s.withFlags v).sp = s.sp := rfl
@[simp] theorem withFlags_pc (v : Flags) (s : State) : (s.withFlags v).pc = s.pc := rfl
@[simp] theorem withFlags_flags (v : Flags) (s : State) : (s.withFlags v).flags = v := rfl
@[simp] theorem withFlags_mem (v : Flags) (s : State) : (s.withFlags v).mem = s.mem := rfl
@[simp] theorem withFlags_latch (v : Flags) (s : State) : (s.withFlags v).latch = s.latch := rfl
@[simp] theorem withFlags_cfg (v : Flags) (s : State) : (s.withFlags v).cfg = s.cfg := rfl

@[simp] theorem withMem_a (v : Memory) (s : State) : (s.withMem v).a = s.a := rfl
@[simp] theorem withMem_x (v : Memory) (s : State) : (s.withMem v).x = s.x := rfl
@[simp] theorem withMem_y (v : Memory) (s : State) : (s.withMem v).y = s.y := rfl
@[simp] theorem withMem_sp (v : Memory) (s : State) : (s.withMem v).sp = s.sp := rfl
@[simp] theorem withMem_pc (v : Memory) (s : State) : (s.withMem v).pc = s.pc := rfl
@[simp] theorem withMem_flags (v : Memory) (s : State) : (s.withMem v).flags = s.flags := rfl
@[simp] theorem withMem_mem (v : Memory) (s : State) : (s.withMem v).mem = v := rfl
@[simp] theorem withMem_latch (v : Memory) (s : State) : (s.withMem v).latch = s.latch := rfl
@[simp] theorem withMem_cfg (v : Memory) (s : State) : (s.withMem v).cfg = s.cfg := rfl

@[simp] theorem withLatch_a (v : Option FaultKind) (s : State) : (s.withLatch v).a = s.a := rfl
@[simp] theorem withLatch_x (v : Option FaultKind) (s : State) : (s.withLatch v).x = s.x := rfl
@[simp] theorem withLatch_y (v : Option FaultKind) (s : State) : (s.withLatch v).y = s.y := rfl
@[simp] theorem withLatch_sp (v : Option FaultKind) (s : State) : (s.withLatch v).sp = s.sp := rfl
@[simp] theorem withLatch_pc (v : Option FaultKind) (s : State) : (s.withLatch v).pc = s.pc := rfl
@[simp] theorem withLatch_flags (v : Option FaultKind) (s : State) : (s.withLatch v).flags = s.flags := rfl
@[simp] theorem withLatch_mem (v : Option FaultKind) (s : State) : (s.withLatch v).mem = s.mem := rfl
@[simp] theorem withLatch_latch (v : Option FaultKind) (s : State) : (s.withLatch v).latch = v := rfl
@[simp] theorem withLatch_cfg (v : Option FaultKind) (s : State) : (s.withLatch v).cfg = s.cfg := rfl

@[simp] theorem withCfg_a (v : Config) (s : State) : (s.withCfg v).a = s.a := rfl
@[simp] theorem withCfg_x (v : Config) (s : State) : (s.withCfg v).x = s.x := rfl
@[simp] theorem withCfg_y (v : Config) (s : State) : (s.withCfg v).y = s.y := rfl
@[simp] theorem withCfg_sp (v : Config) (s : State) : (s.withCfg v).sp = s.sp := rfl
@[simp] theorem withCfg_pc (v : Config) (s : State) : (s.withCfg v).pc = s.pc := rfl
@[simp] theorem withCfg_flags (v : Config) (s : State) : (s.withCfg v).flags = s.flags := rfl
@[simp] theorem withCfg_mem (v : Config) (s : State) : (s.withCfg v).mem = s.mem := rfl
@[simp] theorem withCfg_latch (v : Config) (s : State) : (s.withCfg v).latch = s.latch := rfl
@[simp] theorem withCfg_cfg (v : Config) (s : State) : (s.withCfg v).cfg = v := rfl

/-! ### The register writes that set Z and N -/

@[simp] theorem putA_a (v : Byte) (s : State) : (putA v s).a = v := rfl
@[simp] theorem putA_x (v : Byte) (s : State) : (putA v s).x = s.x := rfl
@[simp] theorem putA_y (v : Byte) (s : State) : (putA v s).y = s.y := rfl
@[simp] theorem putA_sp (v : Byte) (s : State) : (putA v s).sp = s.sp := rfl
@[simp] theorem putA_pc (v : Byte) (s : State) : (putA v s).pc = s.pc := rfl
@[simp] theorem putA_flags (v : Byte) (s : State) : (putA v s).flags = s.flags.setZN v := rfl
@[simp] theorem putA_mem (v : Byte) (s : State) : (putA v s).mem = s.mem := rfl
@[simp] theorem putA_latch (v : Byte) (s : State) : (putA v s).latch = s.latch := rfl
@[simp] theorem putA_cfg (v : Byte) (s : State) : (putA v s).cfg = s.cfg := rfl

@[simp] theorem putX_a (v : Byte) (s : State) : (putX v s).a = s.a := rfl
@[simp] theorem putX_x (v : Byte) (s : State) : (putX v s).x = v := rfl
@[simp] theorem putX_y (v : Byte) (s : State) : (putX v s).y = s.y := rfl
@[simp] theorem putX_sp (v : Byte) (s : State) : (putX v s).sp = s.sp := rfl
@[simp] theorem putX_pc (v : Byte) (s : State) : (putX v s).pc = s.pc := rfl
@[simp] theorem putX_flags (v : Byte) (s : State) : (putX v s).flags = s.flags.setZN v := rfl
@[simp] theorem putX_mem (v : Byte) (s : State) : (putX v s).mem = s.mem := rfl
@[simp] theorem putX_latch (v : Byte) (s : State) : (putX v s).latch = s.latch := rfl
@[simp] theorem putX_cfg (v : Byte) (s : State) : (putX v s).cfg = s.cfg := rfl

@[simp] theorem putY_a (v : Byte) (s : State) : (putY v s).a = s.a := rfl
@[simp] theorem putY_x (v : Byte) (s : State) : (putY v s).x = s.x := rfl
@[simp] theorem putY_y (v : Byte) (s : State) : (putY v s).y = v := rfl
@[simp] theorem putY_sp (v : Byte) (s : State) : (putY v s).sp = s.sp := rfl
@[simp] theorem putY_pc (v : Byte) (s : State) : (putY v s).pc = s.pc := rfl
@[simp] theorem putY_flags (v : Byte) (s : State) : (putY v s).flags = s.flags.setZN v := rfl
@[simp] theorem putY_mem (v : Byte) (s : State) : (putY v s).mem = s.mem := rfl
@[simp] theorem putY_latch (v : Byte) (s : State) : (putY v s).latch = s.latch := rfl
@[simp] theorem putY_cfg (v : Byte) (s : State) : (putY v s).cfg = s.cfg := rfl

/-! ### The commit -/

@[simp] theorem commit_a (r : Option Addr) (n : Nat) (s : State) : (commit r n s).a = s.a := rfl
@[simp] theorem commit_x (r : Option Addr) (n : Nat) (s : State) : (commit r n s).x = s.x := rfl
@[simp] theorem commit_y (r : Option Addr) (n : Nat) (s : State) : (commit r n s).y = s.y := rfl
@[simp] theorem commit_sp (r : Option Addr) (n : Nat) (s : State) : (commit r n s).sp = s.sp := rfl
@[simp] theorem commit_none_pc (n : Nat) (s : State) : (commit none n s).pc = s.pc + BitVec.ofNat 16 n := rfl
@[simp] theorem commit_some_pc (t : Addr) (n : Nat) (s : State) : (commit (some t) n s).pc = t := rfl
@[simp] theorem commit_flags (r : Option Addr) (n : Nat) (s : State) : (commit r n s).flags = s.flags := rfl
@[simp] theorem commit_mem (r : Option Addr) (n : Nat) (s : State) : (commit r n s).mem = s.mem := rfl
@[simp] theorem commit_latch (r : Option Addr) (n : Nat) (s : State) : (commit r n s).latch = s.latch := rfl
@[simp] theorem commit_cfg (r : Option Addr) (n : Nat) (s : State) : (commit r n s).cfg = s.cfg := rfl

/-! ### The flag updates -/

@[simp] theorem setZN_c (r : Byte) (f : Flags) : (f.setZN r).c = f.c := rfl
@[simp] theorem setZN_z (r : Byte) (f : Flags) : (f.setZN r).z = (r == 0#8) := rfl
@[simp] theorem setZN_i (r : Byte) (f : Flags) : (f.setZN r).i = f.i := rfl
@[simp] theorem setZN_d (r : Byte) (f : Flags) : (f.setZN r).d = f.d := rfl
@[simp] theorem setZN_b (r : Byte) (f : Flags) : (f.setZN r).b = f.b := rfl
@[simp] theorem setZN_v (r : Byte) (f : Flags) : (f.setZN r).v = f.v := rfl
@[simp] theorem setZN_n (r : Byte) (f : Flags) : (f.setZN r).n = r.msb := rfl

@[simp] theorem afterAdd_c (o : Byte × Bool × Bool) (f : Flags) : (f.afterAdd o).c = o.2.1 := rfl
@[simp] theorem afterAdd_z (o : Byte × Bool × Bool) (f : Flags) : (f.afterAdd o).z = (o.1 == 0#8) := rfl
@[simp] theorem afterAdd_i (o : Byte × Bool × Bool) (f : Flags) : (f.afterAdd o).i = f.i := rfl
@[simp] theorem afterAdd_d (o : Byte × Bool × Bool) (f : Flags) : (f.afterAdd o).d = f.d := rfl
@[simp] theorem afterAdd_b (o : Byte × Bool × Bool) (f : Flags) : (f.afterAdd o).b = f.b := rfl
@[simp] theorem afterAdd_v (o : Byte × Bool × Bool) (f : Flags) : (f.afterAdd o).v = o.2.2 := rfl
@[simp] theorem afterAdd_n (o : Byte × Bool × Bool) (f : Flags) : (f.afterAdd o).n = o.1.msb := rfl

@[simp] theorem afterCompare_c (o : Byte × Bool) (f : Flags) : (f.afterCompare o).c = o.2 := rfl
@[simp] theorem afterCompare_z (o : Byte × Bool) (f : Flags) : (f.afterCompare o).z = (o.1 == 0#8) := rfl
@[simp] theorem afterCompare_i (o : Byte × Bool) (f : Flags) : (f.afterCompare o).i = f.i := rfl
@[simp] theorem afterCompare_d (o : Byte × Bool) (f : Flags) : (f.afterCompare o).d = f.d := rfl
@[simp] theorem afterCompare_b (o : Byte × Bool) (f : Flags) : (f.afterCompare o).b = f.b := rfl
@[simp] theorem afterCompare_v (o : Byte × Bool) (f : Flags) : (f.afterCompare o).v = f.v := rfl
@[simp] theorem afterCompare_n (o : Byte × Bool) (f : Flags) : (f.afterCompare o).n = o.1.msb := rfl

@[simp] theorem afterShift_c (o : Byte × Bool) (f : Flags) : (f.afterShift o).c = o.2 := rfl
@[simp] theorem afterShift_z (o : Byte × Bool) (f : Flags) : (f.afterShift o).z = (o.1 == 0#8) := rfl
@[simp] theorem afterShift_i (o : Byte × Bool) (f : Flags) : (f.afterShift o).i = f.i := rfl
@[simp] theorem afterShift_d (o : Byte × Bool) (f : Flags) : (f.afterShift o).d = f.d := rfl
@[simp] theorem afterShift_b (o : Byte × Bool) (f : Flags) : (f.afterShift o).b = f.b := rfl
@[simp] theorem afterShift_v (o : Byte × Bool) (f : Flags) : (f.afterShift o).v = f.v := rfl
@[simp] theorem afterShift_n (o : Byte × Bool) (f : Flags) : (f.afterShift o).n = o.1.msb := rfl

@[simp] theorem afterBit_c (a m : Byte) (f : Flags) : (f.afterBit a m).c = f.c := rfl
@[simp] theorem afterBit_z (a m : Byte) (f : Flags) : (f.afterBit a m).z = ((a &&& m) == 0#8) := rfl
@[simp] theorem afterBit_i (a m : Byte) (f : Flags) : (f.afterBit a m).i = f.i := rfl
@[simp] theorem afterBit_d (a m : Byte) (f : Flags) : (f.afterBit a m).d = f.d := rfl
@[simp] theorem afterBit_b (a m : Byte) (f : Flags) : (f.afterBit a m).b = f.b := rfl
@[simp] theorem afterBit_v (a m : Byte) (f : Flags) : (f.afterBit a m).v = m.getLsbD 6 := rfl
@[simp] theorem afterBit_n (a m : Byte) (f : Flags) : (f.afterBit a m).n = m.getLsbD 7 := rfl

@[simp] theorem unpackStatus_c (r : Byte) (f : Flags) : (unpackStatus r f).c = r.getLsbD 0 := rfl
@[simp] theorem unpackStatus_z (r : Byte) (f : Flags) : (unpackStatus r f).z = r.getLsbD 1 := rfl
@[simp] theorem unpackStatus_i (r : Byte) (f : Flags) : (unpackStatus r f).i = r.getLsbD 2 := rfl
@[simp] theorem unpackStatus_d (r : Byte) (f : Flags) : (unpackStatus r f).d = r.getLsbD 3 := rfl
@[simp] theorem unpackStatus_b (r : Byte) (f : Flags) : (unpackStatus r f).b = f.b := rfl
@[simp] theorem unpackStatus_v (r : Byte) (f : Flags) : (unpackStatus r f).v = r.getLsbD 6 := rfl
@[simp] theorem unpackStatus_n (r : Byte) (f : Flags) : (unpackStatus r f).n = r.getLsbD 7 := rfl

/-! ### Sequencing -/

section
variable {α β γ : Type}

@[simp] theorem andThen_next (x : α) (f : α → Host.Outcome β Fault Refusal) : andThen (.next x) f = f x := rfl

@[simp] theorem andThen_fault (r : Fault) (f : α → Host.Outcome β Fault Refusal) : andThen (.fault r) f = .fault r := rfl

@[simp] theorem andThen_refused (r : Refusal) (f : α → Host.Outcome β Fault Refusal) :
    andThen (.refused r) f = .refused r := rfl

theorem andThen_assoc (o : Host.Outcome α Fault Refusal) (f : α → Host.Outcome β Fault Refusal)
    (g : β → Host.Outcome γ Fault Refusal) : andThen (andThen o f) g = andThen o fun x => andThen (f x) g := by
  cases o <;> rfl

/-- Two parts in sequence complete exactly when both do. -/
theorem andThen_eq_next {o : Host.Outcome α Fault Refusal} {f : α → Host.Outcome β Fault Refusal} {y : β} :
    andThen o f = .next y ↔ ∃ x, o = .next x ∧ f x = .next y := by
  cases o <;> simp

/-- Two parts in sequence fault exactly when the first does, or the second does after the first completed. -/
theorem andThen_eq_fault {o : Host.Outcome α Fault Refusal} {f : α → Host.Outcome β Fault Refusal} {r : Fault} :
    andThen o f = .fault r ↔ o = .fault r ∨ ∃ x, o = .next x ∧ f x = .fault r := by
  cases o <;> simp

/-- Two parts in sequence refuse exactly when the first does, or the second does after the first completed. -/
theorem andThen_eq_refused {o : Host.Outcome α Fault Refusal} {f : α → Host.Outcome β Fault Refusal} {r : Refusal} :
    andThen o f = .refused r ↔ o = .refused r ∨ ∃ x, o = .next x ∧ f x = .refused r := by
  cases o <;> simp

end

end Sys2Proof.Machine
end

