-- ==== Sys2Proof/Laws/Memory.lean ====
section
/-! SUPPORT. The laws of storage, of the region map and of the stack primitives. -/

namespace Sys2Proof.Machine

/-! ### Storage -/

/-- The canonical form from a cell upwards holds from any lower cell. -/
theorem wfFrom_mono {m : Memory} {lo hi : Nat} (h : Memory.wfFrom hi m = true) (le : lo ≤ hi) :
    Memory.wfFrom lo m = true := by
  cases m with
  | nil => rfl
  | cons c m =>
    simp only [Memory.wfFrom, Bool.and_eq_true, decide_eq_true_eq] at h ⊢
    exact ⟨⟨⟨by omega, h.1.1.2⟩, h.1.2⟩, h.2⟩

/-- A cell below all listed cells holds the unwritten byte. -/
theorem read_below {m : Memory} {lo a : Nat} (h : Memory.wfFrom lo m = true) (lt : a < lo) :
    m.read a = Config.unwrittenByte := by
  induction m generalizing lo with
  | nil => rfl
  | cons c m ih =>
    simp only [Memory.wfFrom, Bool.and_eq_true, decide_eq_true_eq] at h
    rw [Memory.read, if_neg (by omega)]
    exact ih h.2 (by omega)

/-- A write keeps the canonical form. -/
theorem wfFrom_write {m : Memory} {lo a : Nat} {b : Byte} (h : Memory.wfFrom lo m = true) (le : lo ≤ a)
    (cell : isCell a = true) : Memory.wfFrom lo (m.write a b) = true := by
  induction m generalizing lo with
  | nil =>
    unfold Memory.write
    split <;> simp_all [Memory.wfFrom]
  | cons c m ih =>
    simp only [Memory.wfFrom, Bool.and_eq_true, decide_eq_true_eq] at h
    obtain ⟨⟨⟨h1, h2⟩, h3⟩, h4⟩ := h
    unfold Memory.write
    split
    · next lt =>
      simp only [Memory.wfFrom, Bool.and_eq_true, decide_eq_true_eq]
      exact ⟨⟨⟨h1, h2⟩, h3⟩, ih h4 lt⟩
    · split
      · next eq =>
        split
        · exact wfFrom_mono h4 (by omega)
        · simp_all [Memory.wfFrom]
      · split
        · simp_all [Memory.wfFrom]
        · have : a + 1 ≤ c.1 := by omega
          simp_all [Memory.wfFrom]

theorem wf_write {m : Memory} {a : Nat} {b : Byte} (h : m.wf = true) (cell : isCell a = true) :
    (m.write a b).wf = true := wfFrom_write h (Nat.zero_le a) cell

/-- A cell just written holds the byte written. -/
theorem read_write_same {m : Memory} {lo a : Nat} {b : Byte} (h : Memory.wfFrom lo m = true) :
    (m.write a b).read a = b := by
  induction m generalizing lo with
  | nil =>
    unfold Memory.write
    split <;> simp_all [Memory.read]
  | cons c m ih =>
    simp only [Memory.wfFrom, Bool.and_eq_true, decide_eq_true_eq] at h
    unfold Memory.write
    split
    · rw [Memory.read, if_neg (by omega)]; exact ih h.2
    · split
      · split
        · next eq hb => rw [read_below h.2 (by omega), hb]
        · simp [Memory.read]
      · split
        · next hb =>
          rw [Memory.read, if_neg (by omega), read_below h.2 (by omega), hb]
        · simp [Memory.read]

/-- A write leaves every other cell alone. -/
theorem read_write_other {m : Memory} {lo a k : Nat} {b : Byte} (h : Memory.wfFrom lo m = true) (ne : k ≠ a) :
    (m.write a b).read k = m.read k := by
  induction m generalizing lo with
  | nil =>
    unfold Memory.write
    split <;> simp_all [Memory.read, Ne.symm ne]
  | cons c m ih =>
    simp only [Memory.wfFrom, Bool.and_eq_true, decide_eq_true_eq] at h
    unfold Memory.write
    split
    · simp only [Memory.read, ih h.2]
    · split
      · next eq =>
        split
        · simp only [Memory.read]; rw [if_neg (by omega)]
        · simp only [Memory.read]; rw [if_neg (by omega), if_neg (by omega)]
      · split
        · rfl
        · rw [Memory.read]; exact if_neg (by omega)

/-- A byte other than the unwritten one is read back whatever the form of the list. -/
theorem read_write_nonzero {m : Memory} {a : Nat} {b : Byte} (hb : b ≠ Config.unwrittenByte) :
    (m.write a b).read a = b := by
  induction m with
  | nil => simp [Memory.write, Memory.read, hb]
  | cons c m ih =>
    unfold Memory.write
    split
    · rw [Memory.read, if_neg (by omega)]; exact ih
    · split
      · simp [Memory.read]
      · simp [Memory.read]

/-! ### The region map -/

/-- The cell of an address, by address range. -/
theorem cellOf_eq (p : Addr) :
    cellOf p =
      if p.toNat ≤ 0x1FFF then some (p.toNat % 0x800)
      else if p.toNat ≤ 0x3FFF then some (0x2000 + p.toNat % 8)
      else if p.toNat ≤ 0x4017 then some p.toNat
      else if p.toNat ≤ 0x401F then none
      else some p.toNat := by
  unfold cellOf route
  repeat' split
  all_goals simp only [Region.cell, Config.cartBase, Option.some.injEq]
  all_goals omega

/-- An address is forbidden exactly when it lies in 0x4018 - 0x401F. -/
theorem forbidden_iff (p : Addr) : forbidden p = true ↔ 0x4018 ≤ p.toNat ∧ p.toNat ≤ 0x401F := by
  unfold forbidden route
  repeat' split
  all_goals simp
  all_goals omega

/-- An address has no cell exactly when it is forbidden. -/
theorem cellOf_eq_none (p : Addr) : cellOf p = none ↔ forbidden p = true := by
  rw [forbidden_iff, cellOf_eq]
  repeat' split
  all_goals simp
  all_goals omega

/-- Every address that is not forbidden has a cell. -/
theorem cellOf_isSome {p : Addr} (h : forbidden p = false) : ∃ k, cellOf p = some k := by
  cases e : cellOf p with
  | none => rw [cellOf_eq_none] at e; simp [e] at h
  | some k => exact ⟨k, rfl⟩

/-- The cell of an address exists. -/
theorem isCell_cellOf {p : Addr} {k : Nat} (h : cellOf p = some k) : isCell k = true := by
  rw [cellOf_eq] at h
  simp only [isCell, Bool.or_eq_true, Bool.and_eq_true, decide_eq_true_eq]
  have := p.isLt
  repeat' split at h
  all_goals simp only [Option.some.injEq, reduceCtorEq] at h
  all_goals omega

/-- The region and index a cell belongs to. -/
def regionOfCell (k : Nat) : Region :=
  if k < 0x800 then .ram k
  else if k < 0x2008 then .preg (k - 0x2000)
  else if k < 0x4018 then .preg2 (k - 0x4000)
  else .cart (k - 0x4020)

/-- The cell determines the route. -/
theorem route_of_cellOf {p : Addr} {k : Nat} (h : cellOf p = some k) : route p = regionOfCell k := by
  rw [cellOf_eq] at h
  unfold route
  split at h
  · obtain rfl := Option.some.inj h
    rw [if_pos ‹_›, regionOfCell, if_pos (by omega)]
  · split at h
    · obtain rfl := Option.some.inj h
      rw [if_neg ‹_›, if_pos ‹_›, regionOfCell, if_neg (by omega), if_pos (by omega), Nat.add_sub_cancel_left]
    · split at h
      · obtain rfl := Option.some.inj h
        rw [if_neg ‹_›, if_neg ‹_›, if_pos ‹_›, regionOfCell, if_neg (by omega), if_neg (by omega), if_pos (by omega)]
      · split at h
        · cases h
        · obtain rfl := Option.some.inj h
          rw [if_neg ‹_›, if_neg ‹_›, if_neg ‹_›, if_neg ‹_›, regionOfCell, if_neg (by omega), if_neg (by omega),
            if_neg (by omega)]

/-- Addresses with the same cell have the same route: addresses that are apart have different cells. -/
theorem route_eq_of_cellOf_eq {p q : Addr} {k : Nat} (hp : cellOf p = some k) (hq : cellOf q = some k) :
    route p = route q := (route_of_cellOf hp).trans (route_of_cellOf hq).symm

/-! ### The two memory operations -/

theorem memRead_of_cell {p : Addr} {k : Nat} (h : cellOf p = some k) (s : State) :
    memRead p s = .next (s.mem.read k) := by simp [memRead, h]

theorem memWrite_of_cell {p : Addr} {k : Nat} (h : cellOf p = some k) (v : Byte) (s : State) :
    memWrite p v s = .next (s.withMem (s.mem.write k v)) := by simp [memWrite, h]

theorem memRead_of_forbidden {p : Addr} (h : forbidden p = true) (s : State) :
    memRead p s = .fault (.restrictedRegion p) := by simp [memRead, (cellOf_eq_none p).2 h]

theorem memWrite_of_forbidden {p : Addr} (h : forbidden p = true) (v : Byte) (s : State) :
    memWrite p v s = .fault (.restrictedRegion p) := by simp [memWrite, (cellOf_eq_none p).2 h]

/-- What a read can answer. -/
theorem memRead_cases (p : Addr) (s : State) :
    (∃ k, cellOf p = some k ∧ memRead p s = .next (s.mem.read k)) ∨
      (forbidden p = true ∧ memRead p s = .fault (.restrictedRegion p)) := by
  cases h : forbidden p with
  | true => exact .inr ⟨rfl, memRead_of_forbidden h s⟩
  | false =>
    obtain ⟨k, hk⟩ := cellOf_isSome h
    exact .inl ⟨k, hk, memRead_of_cell hk s⟩

/-- What a write can answer. -/
theorem memWrite_cases (p : Addr) (v : Byte) (s : State) :
    (∃ k, cellOf p = some k ∧ memWrite p v s = .next (s.withMem (s.mem.write k v))) ∨
      (forbidden p = true ∧ memWrite p v s = .fault (.restrictedRegion p)) := by
  cases h : forbidden p with
  | true => exact .inr ⟨rfl, memWrite_of_forbidden h v s⟩
  | false =>
    obtain ⟨k, hk⟩ := cellOf_isSome h
    exact .inl ⟨k, hk, memWrite_of_cell hk v s⟩

/-- A read depends on the storage alone. -/
theorem memRead_congr {s t : State} (h : t.mem = s.mem) (p : Addr) : memRead p t = memRead p s := by
  simp [memRead, h]

/-- A write leaves the reading of every address apart from it alone. -/
theorem memRead_write_apart {s t : State} {p q : Addr} {k : Nat} {v : Byte} (wf : s.mem.wf = true)
    (hk : cellOf q = some k) (ht : t.mem = s.mem.write k v) (ne : route p ≠ route q) : memRead p t = memRead p s := by
  unfold memRead
  split
  · rfl
  · next j hj =>
    rw [ht, read_write_other wf]
    rintro rfl
    exact ne (route_eq_of_cellOf_eq hj hk)

/-! ### The stack -/

theorem stackAddr_toNat (c : Config) (p : Byte) : (stackAddr c p).toNat = c.stackPage.toNat * 256 + p.toNat := by
  have h1 := c.stackPage.isLt
  have h2 := p.isLt
  unfold stackAddr
  rw [BitVec.toNat_append, BitVec.toNat_setWidth, Nat.mod_eq_of_lt (by omega), Nat.shiftLeft_eq]
  rw [Nat.mul_comm, ← Nat.two_pow_add_eq_or_of_lt h2]

/-- A stack slot is a RAM cell (R52). -/
theorem cellOf_stackAddr (c : Config) (p : Byte) :
    cellOf (stackAddr c p) = some (stackCell c p) := by
  have h1 := c.stackPage.isLt
  have h2 := p.isLt
  rw [cellOf_eq, stackAddr_toNat, if_pos (by omega), stackCell]

/-- `Push` never faults, and this is all it does. -/
theorem push_eq (v : Byte) (s : State) :
    push v s = .next ((s.withMem (s.mem.write (stackCell s.cfg s.sp) v)).withSP (s.sp - 1)) := by
  simp [push, memWrite_of_cell (cellOf_stackAddr s.cfg s.sp)]

/-- `Pop` never faults, and this is all it does. -/
theorem pop_eq (s : State) :
    pop s = .next (s.mem.read (stackCell s.cfg (s.sp + 1)), s.withSP (s.sp + 1)) := by
  rw [pop, memRead_of_cell (cellOf_stackAddr s.cfg (s.sp + 1))]
  rfl

end Sys2Proof.Machine
end

