-- ==== Sys2Proof/Laws/Operands.lean ====
section
/-! SUPPORT. What the operand functions and the instruction shapes can answer, said once. -/

namespace Sys2Proof.Machine

/-! ### Addressing -/

theorem zext16_toNat (b : Byte) : (zext16 b).toNat = b.toNat := by
  have := b.isLt
  rw [zext16, BitVec.toNat_setWidth, Nat.mod_eq_of_lt (by omega)]

/-- An address of the zero page is RAM. -/
theorem cellOf_zext16 (b : Byte) : cellOf (zext16 b) = some b.toNat := by
  have := b.isLt
  rw [cellOf_eq, zext16_toNat, if_pos (by omega), Nat.mod_eq_of_lt (by omega)]

theorem memRead_zext16 (b : Byte) (s : State) : memRead (zext16 b) s = .next (s.mem.read b.toNat) :=
  memRead_of_cell (cellOf_zext16 b) s

/-- The zero-page pointer of IZX and IZY is always readable. -/
theorem readPair_zext16 (b c : Byte) (s : State) :
    readPair (zext16 b) (zext16 c) s = .next (joinBytes (s.mem.read b.toNat) (s.mem.read c.toNat)) := by
  simp [readPair, memRead_zext16]

/-- What resolving an operand can answer: a descriptor, or, for IND only, the fault of a pointer read. -/
theorem resolve_cases (o : Operand) (s : State) :
    (∃ d, resolve o s = .next d) ∨ ∃ p q, o = .ind p ∧ forbidden q = true ∧ resolve o s = .fault (.restrictedRegion q) := by
  cases o with
  | ind p =>
    rcases memRead_cases p s with ⟨k, -, h1⟩ | ⟨hf, h1⟩
    · rcases memRead_cases (p + 1) s with ⟨j, -, h2⟩ | ⟨hf, h2⟩
      · exact .inl ⟨_, by simp only [resolve, readPair, h1, h2, andThen_next]; rfl⟩
      · exact .inr ⟨p, p + 1, rfl, hf, by simp only [resolve, readPair, h1, h2, andThen_next, andThen_fault]⟩
    · exact .inr ⟨p, p, rfl, hf, by simp only [resolve, readPair, h1, andThen_fault]⟩
  | izx b => exact .inl ⟨_, by simp only [resolve, readPair_zext16, andThen_next]; rfl⟩
  | izy b => exact .inl ⟨_, by simp only [resolve, readPair_zext16, andThen_next]; rfl⟩
  | _ => exact .inl ⟨_, rfl⟩

/-! ### The instruction shapes -/

/-- A reading instruction completes exactly when its operand has a value, and then leaves its effect and the advanced
`pc`. -/
theorem readInstr_next {o : Operand} {f : Byte → State} {s t : State} :
    readInstr o f s = .next t ↔ ∃ m, operandValue o s = .next m ∧ t = commit none o.len (f m) := by
  unfold readInstr
  rw [andThen_eq_next]
  constructor
  · rintro ⟨m, h, e⟩; exact ⟨m, h, (Host.Outcome.next.inj e).symm⟩
  · rintro ⟨m, h, rfl⟩; exact ⟨m, h, rfl⟩

/-- A storing instruction completes exactly when its operand is an address with a cell, or the accumulator. -/
theorem storeInstr_next {o : Operand} {v : Byte} {s t : State} :
    storeInstr o v s = .next t ↔
      ∃ d u, resolve o s = .next d ∧ storeResult d v s = .next u ∧ t = commit none o.len u := by
  unfold storeInstr
  rw [andThen_eq_next]
  constructor
  · rintro ⟨d, h, e⟩
    rw [andThen_eq_next] at e
    obtain ⟨u, h', e⟩ := e
    exact ⟨d, u, h, h', (Host.Outcome.next.inj e).symm⟩
  · rintro ⟨d, u, h, h', rfl⟩
    exact ⟨d, h, by rw [h']; rfl⟩

/-- A modifying instruction completes exactly when its operand can be read and written back. -/
theorem modifyInstr_next {o : Operand} {g : Byte → Byte} {fl : Byte → Flags} {s t : State} :
    modifyInstr o g fl s = .next t ↔
      ∃ d m u, resolve o s = .next d ∧ loadOperand d s = .next m ∧ storeResult d (g m) s = .next u ∧
        t = commit none o.len (u.withFlags (fl m)) := by
  unfold modifyInstr
  rw [andThen_eq_next]
  constructor
  · rintro ⟨d, h, e⟩
    rw [andThen_eq_next] at e
    obtain ⟨m, h', e⟩ := e
    rw [andThen_eq_next] at e
    obtain ⟨u, h'', e⟩ := e
    exact ⟨d, m, u, h, h', h'', (Host.Outcome.next.inj e).symm⟩
  · rintro ⟨d, m, u, h, h', h'', rfl⟩
    exact ⟨d, h, by rw [h', andThen_next, h'']; rfl⟩

/-- A store of a result changes the accumulator alone, or one cell alone. -/
theorem storeResult_next {d : Descriptor} {v : Byte} {s t : State} (h : storeResult d v s = .next t) :
    (d = .acc ∧ t = s.withA v) ∨
      ∃ ea k, d = .addr ea ∧ cellOf ea = some k ∧ t = s.withMem (s.mem.write k v) := by
  cases d with
  | acc => exact .inl ⟨rfl, (Host.Outcome.next.inj h).symm⟩
  | addr ea =>
    rcases memWrite_cases ea v s with ⟨k, hk, e⟩ | ⟨-, e⟩
    · exact .inr ⟨ea, k, rfl, hk, Host.Outcome.next.inj (h.symm.trans e)⟩
    · exact absurd (h.symm.trans e) (by simp)
  | none => simp [storeResult] at h
  | imm _ => simp [storeResult] at h
  | rel _ => simp [storeResult] at h

/-! ### The stack instructions' shapes -/

theorem pushWord_eq (w : Addr) (s : State) :
    pushWord w s =
      .next (((s.withMem ((s.mem.write (stackCell s.cfg s.sp) (highByte w)).write (stackCell s.cfg (s.sp - 1)) (lowByte w))).withSP
        (s.sp - 1 - 1))) := by
  rw [pushWord, push_eq, andThen_next, push_eq]
  rfl

theorem popWord_eq (s : State) :
    popWord s =
      .next (joinBytes (s.mem.read (stackCell s.cfg (s.sp + 1))) (s.mem.read (stackCell s.cfg (s.sp + 1 + 1))),
        s.withSP (s.sp + 1 + 1)) := by
  rw [popWord, pop_eq, andThen_next, pop_eq]
  rfl

theorem popStatus_eq (s : State) :
    popStatus s =
      .next ((s.withSP (s.sp + 1)).withFlags (unpackStatus (s.mem.read (stackCell s.cfg (s.sp + 1))) s.flags)) := by
  rw [popStatus, pop_eq]
  rfl

end Sys2Proof.Machine
end

