-- ==== Sys2Proof/Laws/Step.lean ====
section
/-! SUPPORT. Words, the decoder's table and the step. -/

namespace Sys2Proof

theorem joinBytes_toNat (lo hi : Byte) : (joinBytes lo hi).toNat = hi.toNat * 256 + lo.toNat := by
  have h1 := lo.isLt
  unfold joinBytes
  rw [BitVec.toNat_append, Nat.shiftLeft_eq, Nat.mul_comm, ← Nat.two_pow_add_eq_or_of_lt h1, Nat.mul_comm]

theorem lowByte_toNat (w : Addr) : (lowByte w).toNat = w.toNat % 256 := by
  rw [lowByte, BitVec.toNat_setWidth]

theorem highByte_toNat (w : Addr) : (highByte w).toNat = w.toNat / 256 := by
  have := w.isLt
  rw [highByte, BitVec.toNat_setWidth, BitVec.toNat_ushiftRight, Nat.shiftRight_eq_div_pow]
  omega

/-- A word is its two bytes joined. -/
theorem joinBytes_lowByte_highByte (w : Addr) : joinBytes (lowByte w) (highByte w) = w := by
  apply BitVec.eq_of_toNat_eq
  rw [joinBytes_toNat, lowByte_toNat, highByte_toNat]
  omega

theorem lowByte_joinBytes (lo hi : Byte) : lowByte (joinBytes lo hi) = lo := by
  apply BitVec.eq_of_toNat_eq
  rw [lowByte_toNat, joinBytes_toNat]
  omega

theorem highByte_joinBytes (lo hi : Byte) : highByte (joinBytes lo hi) = hi := by
  have := lo.isLt
  apply BitVec.eq_of_toNat_eq
  rw [highByte_toNat, joinBytes_toNat]
  omega

end Sys2Proof

namespace Sys2Proof.Machine

/-- A machine that is not halted steps by fetching and executing. -/
theorem step_of_latch {s : State} (h : s.latch = none) : step s = andThen (fetchInstr s) fun i => exec i s := by
  simp [step, h]

/-- A halted machine has no step. -/
theorem step_of_halted {s : State} {k : FaultKind} (h : s.latch = some k) : step s = .refused (.halted k) := by
  simp [step, h]

/-- A step that answers a next state fetched an instruction, on a machine that is not halted, and executed it. -/
theorem step_next {s t : State} (h : step s = .next t) :
    s.latch = none ∧ ∃ i, fetchInstr s = .next i ∧ exec i s = .next t := by
  unfold step at h
  split at h
  · cases h
  · exact ⟨‹_›, andThen_eq_next.1 h⟩

end Sys2Proof.Machine
end

