-- ==== Sys2Proof/Laws/Exec.lean ====
section
/-! SUPPORT. Execution by mnemonic and operand: `exec` of any of the 151 forms is the shared operation of its mnemonic at its
operand, so that a proof over all instructions has 56 cases, and which formats each mnemonic has. -/

namespace Sys2Proof.Machine

/-- The shared operation of a mnemonic, at an operand (the one-form instructions do not look at it). -/
def execOp (m : Mnemonic) (o : Operand) (s : State) : Result :=
  match m with
  | .ora => opOra o s
  | .and => opAnd o s
  | .eor => opEor o s
  | .bit => opBit o s
  | .adc => opAdc o s
  | .sbc => opSbc o s
  | .cmp => opCmp o s
  | .cpx => opCpx o s
  | .cpy => opCpy o s
  | .asl => opAsl o s
  | .lsr => opLsr o s
  | .rol => opRol o s
  | .ror => opRor o s
  | .inc => opInc o s
  | .dec => opDec o s
  | .inx => opInx s
  | .dex => opDex s
  | .iny => opIny s
  | .dey => opDey s
  | .lda => opLda o s
  | .ldx => opLdx o s
  | .ldy => opLdy o s
  | .sta => opSta o s
  | .stx => opStx o s
  | .sty => opSty o s
  | .tax => opTax s
  | .txa => opTxa s
  | .tay => opTay s
  | .tya => opTya s
  | .tsx => opTsx s
  | .txs => opTxs s
  | .bpl => (match o with | .rel off => branchInstr (!s.flags.n) off s | _ => .refused .operandForm)
  | .bmi => (match o with | .rel off => branchInstr s.flags.n off s | _ => .refused .operandForm)
  | .bvc => (match o with | .rel off => branchInstr (!s.flags.v) off s | _ => .refused .operandForm)
  | .bvs => (match o with | .rel off => branchInstr s.flags.v off s | _ => .refused .operandForm)
  | .bcc => (match o with | .rel off => branchInstr (!s.flags.c) off s | _ => .refused .operandForm)
  | .bcs => (match o with | .rel off => branchInstr s.flags.c off s | _ => .refused .operandForm)
  | .bne => (match o with | .rel off => branchInstr (!s.flags.z) off s | _ => .refused .operandForm)
  | .beq => (match o with | .rel off => branchInstr s.flags.z off s | _ => .refused .operandForm)
  | .pha => opPha s
  | .pla => opPla s
  | .php => opPhp s
  | .plp => opPlp s
  | .jmp => opJmp o s
  | .jsr => opJsr o s
  | .rts => opRts s
  | .rti => opRti s
  | .clc => flagInstr { s.flags with c := false } s
  | .sec => flagInstr { s.flags with c := true } s
  | .cli => flagInstr { s.flags with i := false } s
  | .sei => flagInstr { s.flags with i := true } s
  | .clv => flagInstr { s.flags with v := false } s
  | .cld => flagInstr { s.flags with d := false } s
  | .sed => flagInstr { s.flags with d := true } s
  | .nop => .next (commit none 1 s)
  | .brk => .fault .notImplemented

/-- Every arm of `exec` is the shared operation of its mnemonic at its operand. -/
theorem exec_eq_execOp (i : Instr) (s : State) : exec i s = execOp i.mnemonic i.operand s := by
  cases i <;> rfl

/-- The formats of a mnemonic, row by row of 30_encoding.md R75. -/
def formats : Mnemonic → List Format
  | .ora | .and | .eor | .adc | .sbc | .cmp | .lda => [.imm, .zp, .zpx, .abs, .abx, .aby, .izx, .izy]
  | .bit => [.zp, .abs]
  | .cpx | .cpy => [.imm, .zp, .abs]
  | .asl | .lsr | .rol | .ror => [.acc, .zp, .zpx, .abs, .abx]
  | .inc | .dec => [.zp, .zpx, .abs, .abx]
  | .inx | .dex | .iny | .dey | .tax | .txa | .tay | .tya | .tsx | .txs | .pha | .pla | .php | .plp
  | .rts | .rti | .clc | .sec | .cli | .sei | .clv | .cld | .sed | .nop | .brk => [.imp]
  | .ldx => [.imm, .zp, .zpy, .abs, .aby]
  | .ldy => [.imm, .zp, .zpx, .abs, .abx]
  | .sta => [.zp, .zpx, .abs, .abx, .aby, .izx, .izy]
  | .stx => [.zp, .zpy, .abs]
  | .sty => [.zp, .zpx, .abs]
  | .bpl | .bmi | .bvc | .bvs | .bcc | .bcs | .bne | .beq => [.rel]
  | .jmp => [.abs, .ind]
  | .jsr => [.abs]

/-- No instruction has a form outside the table. -/
theorem format_mem_formats (i : Instr) : i.operand.format ∈ formats i.mnemonic := by
  have h : (formats i.mnemonic).contains i.operand.format = true := by cases i <;> rfl
  exact List.contains_iff_mem.1 h

end Sys2Proof.Machine
end

