-- ==== Sys2Proof/Laws/Flags.lean ====
section
/-! SUPPORT. The flag and arithmetic functions of the model in the spec's own words: bits and numbers. -/

namespace Sys2Proof.Machine

theorem setZN_eq_zeroNegative (r : Byte) (f : Flags) : f.setZN r = zeroNegative r f := by
  unfold Flags.setZN zeroNegative
  rw [BitVec.msb_eq_decide]
  rfl

/-- Bit 7 is the sign. -/
theorem getLsbD_seven (r : Byte) : r.getLsbD 7 = r.msb := rfl

/-- The status byte as bits. -/
theorem packStatus_eq (ctx : PushContext) (f : Flags) :
    packStatus ctx f =
      BitVec.ofBool f.n ++ (BitVec.ofBool f.v ++ (1#1 ++ (BitVec.ofBool (decide (ctx = .instruction)) ++
        (BitVec.ofBool f.d ++ (BitVec.ofBool f.i ++ (BitVec.ofBool f.z ++ BitVec.ofBool f.c)))))) := by
  obtain ⟨c, z, i, d, b, v, n⟩ := f
  cases ctx <;> cases c <;> cases z <;> cases i <;> cases d <;> cases v <;> cases n <;> decide +revert

end Sys2Proof.Machine
end

