-- ==== Sys2Proof/Laws/Outcomes.lean ====
section
/-! SUPPORT. The two ways each shared operation can end, said once: a next state, or the fault of one forbidden address;
and that flags do not steer addressing. -/

namespace Sys2Proof.Machine

/-- The formats whose accesses may reach the forbidden region (60_exceptions.md R241). -/
def reachingFormats : List Format := [.abs, .abx, .aby, .ind, .izx, .izy]

/-- The formats of an operand that resolves to an address without failing. -/
def addressFormats : List Format := [.zp, .zpx, .zpy, .abs, .abx, .aby, .izx, .izy]

/-- The end of an operation of format `fm`: it completes, or one address of the forbidden region stopped it. -/
def CompletesOrForbidden (fm : Format) (o : Result) : Prop :=
  (∃ t, o = .next t) ∨ ∃ p, o = .fault (.restrictedRegion p) ∧ forbidden p = true ∧ fm ∈ reachingFormats

/-- A zero-page address is not forbidden. -/
theorem forbidden_zext16 (b : Byte) : forbidden (zext16 b) = false := by
  cases h : forbidden (zext16 b)
  · rfl
  · have := cellOf_zext16 b
    rw [(cellOf_eq_none _).2 h] at this
    cases this

/-- Resolving one of the address formats gives an address, in the zero page for the zero-page formats. -/
theorem resolve_address {o : Operand} (h : o.format ∈ addressFormats) (s : State) :
    ∃ ea, resolve o s = .next (.addr ea) ∧ (o.format ∉ reachingFormats → forbidden ea = false) := by
  cases o <;> simp [Operand.format, addressFormats] at h <;>
    simp only [resolve, readPair_zext16, andThen_next] <;>
    refine ⟨_, rfl, fun hr => ?_⟩ <;>
    simp [Operand.format, reachingFormats] at hr <;>
    exact forbidden_zext16 _

/-- A read of one byte, and its continuation, ends in one of the two ways. -/
theorem memRead_ends {fm : Format} {ea : Addr} {s : State} (k : Byte → State) (h : fm ∉ reachingFormats → forbidden ea = false) :
    CompletesOrForbidden fm (andThen (memRead ea s) fun m => .next (k m)) := by
  rcases memRead_cases ea s with ⟨j, -, e⟩ | ⟨hf, e⟩
  · exact .inl ⟨_, by rw [e]; rfl⟩
  · refine .inr ⟨ea, by rw [e]; rfl, hf, Classical.byContradiction fun hr => ?_⟩
    rw [h hr] at hf
    cases hf

/-- A reading instruction, of any format it can have. -/
theorem readInstr_ends {o : Operand} (f : Byte → State) (s : State) (h : o.format ∈ .imm :: .acc :: .ind :: addressFormats) :
    CompletesOrForbidden o.format (readInstr o f s) := by
  by_cases ha : o.format ∈ addressFormats
  · obtain ⟨ea, e, hf⟩ := resolve_address ha s
    simp only [readInstr, operandValue, e, andThen_next, loadOperand]
    exact memRead_ends _ hf
  · cases o <;> simp [Operand.format, addressFormats] at h ha
    · exact .inl ⟨_, rfl⟩
    · exact .inl ⟨_, rfl⟩
    · rename_i p
      rcases resolve_cases (.ind p) s with ⟨d, e⟩ | ⟨_, q, -, hf, e⟩
      · obtain ⟨ea, -, e'⟩ := andThen_eq_next.1 e
        cases e'
        simp only [readInstr, operandValue, e, andThen_next, loadOperand]
        exact memRead_ends _ fun hr => absurd (by simp [Operand.format, reachingFormats]) hr
      · exact .inr ⟨q, by simp only [readInstr, operandValue, e, andThen_fault], hf, by simp [Operand.format, reachingFormats]⟩

/-- A storing instruction. -/
theorem storeInstr_ends {o : Operand} (v : Byte) (s : State) (h : o.format ∈ addressFormats) :
    CompletesOrForbidden o.format (storeInstr o v s) := by
  obtain ⟨ea, e, hf⟩ := resolve_address h s
  simp only [storeInstr, e, andThen_next, storeResult]
  rcases memWrite_cases ea v s with ⟨j, -, e⟩ | ⟨hb, e⟩
  · exact .inl ⟨_, by rw [e]; rfl⟩
  · refine .inr ⟨ea, by rw [e]; rfl, hb, Classical.byContradiction fun hr => ?_⟩
    rw [hf hr] at hb
    cases hb

/-- A read-modify-write instruction, or its accumulator form: the write cannot fail where the read did not (R113). -/
theorem modifyInstr_ends {o : Operand} (g : Byte → Byte) (fl : Byte → Flags) (s : State)
    (h : o.format ∈ .acc :: addressFormats) : CompletesOrForbidden o.format (modifyInstr o g fl s) := by
  by_cases ha : o.format ∈ addressFormats
  · obtain ⟨ea, e, hf⟩ := resolve_address ha s
    simp only [modifyInstr, e, andThen_next, loadOperand, storeResult]
    rcases memRead_cases ea s with ⟨j, hj, e⟩ | ⟨hb, e⟩
    · exact .inl ⟨_, by rw [e, andThen_next, memWrite_of_cell hj]; rfl⟩
    · refine .inr ⟨ea, by rw [e]; rfl, hb, Classical.byContradiction fun hr => ?_⟩
      rw [hf hr] at hb
      cases hb
  · cases o <;> simp [Operand.format, addressFormats] at h ha
    exact .inl ⟨_, rfl⟩

/-- The fault of a fetch: an opcode byte without an entry, or a forbidden address. -/
theorem fetchInstr_fault {s : State} {f : Fault} (h : fetchInstr s = .fault f) :
    (∃ op, f = .illegalOpcode op ∧ memRead s.pc s = .next op ∧ tableEntry s.cfg.extOfficial op = .illegal) ∨
      ∃ p, f = .restrictedRegion p ∧ forbidden p = true := by
  have read : ∀ {p : Addr}, memRead p s = .fault f → ∃ q, f = .restrictedRegion q ∧ forbidden q = true := by
    intro p h
    rcases memRead_cases p s with ⟨k, -, e⟩ | ⟨hf, e⟩
    · rw [e] at h; cases h
    · rw [e] at h; cases h; exact ⟨p, rfl, hf⟩
  unfold fetchInstr at h
  rw [andThen_eq_fault] at h
  rcases h with h | ⟨op, h, h'⟩
  · exact .inr (read h)
  · split at h'
    · rename_i he
      cases h'
      exact .inl ⟨op, rfl, h, he⟩
    · cases h'
    · rw [andThen_eq_fault] at h'
      rcases h' with h' | ⟨_, _, h'⟩
      · exact .inr (read h')
      · cases h'
    · rw [andThen_eq_fault] at h'
      rcases h' with h' | ⟨_, _, h'⟩
      · exact .inr (read h')
      · rw [andThen_eq_fault] at h'
        rcases h' with h' | ⟨_, _, h'⟩
        · exact .inr (read h')
        · cases h'

/-- Addressing does not look at the flags. -/
theorem resolve_withFlags (o : Operand) (g : Flags) (s : State) : resolve o (s.withFlags g) = resolve o s := by
  cases o <;> rfl

/-- Nor does reading an operand. -/
theorem operandValue_withFlags (o : Operand) (g : Flags) (s : State) :
    operandValue o (s.withFlags g) = operandValue o s := by
  unfold operandValue
  rw [resolve_withFlags]
  congr 1

/-- A function applied to the outcome of a sequence is applied to its last part. -/
theorem mapNext_andThen {α : Type} (f : State → State) (o : Host.Outcome α Fault Refusal) (k : α → Result) :
    mapNext f (andThen o k) = andThen o fun x => mapNext f (k x) := by
  cases o <;> rfl

end Sys2Proof.Machine
end

