-- ==== Sys2Proof/Laws/PerInstr.lean ====
section
/-! SUPPORT. Per-instruction lemmas about instructions as syntax. -/

namespace Sys2Proof

/-- What holds of every instruction's encoding: it is as long as its format says (30_encoding.md R71); its opcode byte belongs
to the extension set exactly when its mnemonic does (R77); and the complete table's entry for its opcode byte (R74) builds
the instruction from its operand bytes. -/
def Laws.Encoding.Statement (i : Instr) : Prop :=
  (encode i).length = i.len ∧ isExtensionOpcode i.opcode = i.isExtension ∧
    ((fullEntry i.opcode = .one i ∧ i.operand.bytes = []) ∨
      (∃ f b, fullEntry i.opcode = .two f ∧ f b = i ∧ i.operand.bytes = [b]) ∨
      ∃ f w, fullEntry i.opcode = .three f ∧ f w = i ∧ i.operand.bytes = [lowByte w, highByte w])

theorem Laws.Encoding.oraImm (v : Byte) : Statement (.oraImm v) :=
  ⟨rfl, rfl, .inr (.inl ⟨.oraImm, v, (rfl : fullEntry 0x09#8 = _), rfl, rfl⟩)⟩
theorem Laws.Encoding.oraZp (zp : Byte) : Statement (.oraZp zp) :=
  ⟨rfl, rfl, .inr (.inl ⟨.oraZp, zp, (rfl : fullEntry 0x05#8 = _), rfl, rfl⟩)⟩
theorem Laws.Encoding.oraZpx (zp : Byte) : Statement (.oraZpx zp) :=
  ⟨rfl, rfl, .inr (.inl ⟨.oraZpx, zp, (rfl : fullEntry 0x15#8 = _), rfl, rfl⟩)⟩
theorem Laws.Encoding.oraAbs (w : Addr) : Statement (.oraAbs w) :=
  ⟨rfl, rfl, .inr (.inr ⟨.oraAbs, w, (rfl : fullEntry 0x0D#8 = _), rfl, rfl⟩)⟩
theorem Laws.Encoding.oraAbx (w : Addr) : Statement (.oraAbx w) :=
  ⟨rfl, rfl, .inr (.inr ⟨.oraAbx, w, (rfl : fullEntry 0x1D#8 = _), rfl, rfl⟩)⟩
theorem Laws.Encoding.oraAby (w : Addr) : Statement (.oraAby w) :=
  ⟨rfl, rfl, .inr (.inr ⟨.oraAby, w, (rfl : fullEntry 0x19#8 = _), rfl, rfl⟩)⟩
theorem Laws.Encoding.oraIzx (zp : Byte) : Statement (.oraIzx zp) :=
  ⟨rfl, rfl, .inr (.inl ⟨.oraIzx, zp, (rfl : fullEntry 0x01#8 = _), rfl, rfl⟩)⟩
theorem Laws.Encoding.oraIzy (zp : Byte) : Statement (.oraIzy zp) :=
  ⟨rfl, rfl, .inr (.inl ⟨.oraIzy, zp, (rfl : fullEntry 0x11#8 = _), rfl, rfl⟩)⟩
theorem Laws.Encoding.andImm (v : Byte) : Statement (.andImm v) :=
  ⟨rfl, rfl, .inr (.inl ⟨.andImm, v, (rfl : fullEntry 0x29#8 = _), rfl, rfl⟩)⟩
theorem Laws.Encoding.andZp (zp : Byte) : Statement (.andZp zp) :=
  ⟨rfl, rfl, .inr (.inl ⟨.andZp, zp, (rfl : fullEntry 0x25#8 = _), rfl, rfl⟩)⟩
theorem Laws.Encoding.andZpx (zp : Byte) : Statement (.andZpx zp) :=
  ⟨rfl, rfl, .inr (.inl ⟨.andZpx, zp, (rfl : fullEntry 0x35#8 = _), rfl, rfl⟩)⟩
theorem Laws.Encoding.andAbs (w : Addr) : Statement (.andAbs w) :=
  ⟨rfl, rfl, .inr (.inr ⟨.andAbs, w, (rfl : fullEntry 0x2D#8 = _), rfl, rfl⟩)⟩
theorem Laws.Encoding.andAbx (w : Addr) : Statement (.andAbx w) :=
  ⟨rfl, rfl, .inr (.inr ⟨.andAbx, w, (rfl : fullEntry 0x3D#8 = _), rfl, rfl⟩)⟩
theorem Laws.Encoding.andAby (w : Addr) : Statement (.andAby w) :=
  ⟨rfl, rfl, .inr (.inr ⟨.andAby, w, (rfl : fullEntry 0x39#8 = _), rfl, rfl⟩)⟩
theorem Laws.Encoding.andIzx (zp : Byte) : Statement (.andIzx zp) :=
  ⟨rfl, rfl, .inr (.inl ⟨.andIzx, zp, (rfl : fullEntry 0x21#8 = _), rfl, rfl⟩)⟩
theorem Laws.Encoding.andIzy (zp : Byte) : Statement (.andIzy zp) :=
  ⟨rfl, rfl, .inr (.inl ⟨.andIzy, zp, (rfl : fullEntry 0x31#8 = _), rfl, rfl⟩)⟩
theorem Laws.Encoding.eorImm (v : Byte) : Statement (.eorImm v) :=
  ⟨rfl, rfl, .inr (.inl ⟨.eorImm, v, (rfl : fullEntry 0x49#8 = _), rfl, rfl⟩)⟩
theorem Laws.Encoding.eorZp (zp : Byte) : Statement (.eorZp zp) :=
  ⟨rfl, rfl, .inr (.inl ⟨.eorZp, zp, (rfl : fullEntry 0x45#8 = _), rfl, rfl⟩)⟩
theorem Laws.Encoding.eorZpx (zp : Byte) : Statement (.eorZpx zp) :=
  ⟨rfl, rfl, .inr (.inl ⟨.eorZpx, zp, (rfl : fullEntry 0x55#8 = _), rfl, rfl⟩)⟩
theorem Laws.Encoding.eorAbs (w : Addr) : Statement (.eorAbs w) :=
  ⟨rfl, rfl, .inr (.inr ⟨.eorAbs, w, (rfl : fullEntry 0x4D#8 = _), rfl, rfl⟩)⟩
theorem Laws.Encoding.eorAbx (w : Addr) : Statement (.eorAbx w) :=
  ⟨rfl, rfl, .inr (.inr ⟨.eorAbx, w, (rfl : fullEntry 0x5D#8 = _), rfl, rfl⟩)⟩
theorem Laws.Encoding.eorAby (w : Addr) : Statement (.eorAby w) :=
  ⟨rfl, rfl, .inr (.inr ⟨.eorAby, w, (rfl : fullEntry 0x59#8 = _), rfl, rfl⟩)⟩
theorem Laws.Encoding.eorIzx (zp : Byte) : Statement (.eorIzx zp) :=
  ⟨rfl, rfl, .inr (.inl ⟨.eorIzx, zp, (rfl : fullEntry 0x41#8 = _), rfl, rfl⟩)⟩
theorem Laws.Encoding.eorIzy (zp : Byte) : Statement (.eorIzy zp) :=
  ⟨rfl, rfl, .inr (.inl ⟨.eorIzy, zp, (rfl : fullEntry 0x51#8 = _), rfl, rfl⟩)⟩
theorem Laws.Encoding.bitZp (zp : Byte) : Statement (.bitZp zp) :=
  ⟨rfl, rfl, .inr (.inl ⟨.bitZp, zp, (rfl : fullEntry 0x24#8 = _), rfl, rfl⟩)⟩
theorem Laws.Encoding.bitAbs (w : Addr) : Statement (.bitAbs w) :=
  ⟨rfl, rfl, .inr (.inr ⟨.bitAbs, w, (rfl : fullEntry 0x2C#8 = _), rfl, rfl⟩)⟩
theorem Laws.Encoding.adcImm (v : Byte) : Statement (.adcImm v) :=
  ⟨rfl, rfl, .inr (.inl ⟨.adcImm, v, (rfl : fullEntry 0x69#8 = _), rfl, rfl⟩)⟩
theorem Laws.Encoding.adcZp (zp : Byte) : Statement (.adcZp zp) :=
  ⟨rfl, rfl, .inr (.inl ⟨.adcZp, zp, (rfl : fullEntry 0x65#8 = _), rfl, rfl⟩)⟩
theorem Laws.Encoding.adcZpx (zp : Byte) : Statement (.adcZpx zp) :=
  ⟨rfl, rfl, .inr (.inl ⟨.adcZpx, zp, (rfl : fullEntry 0x75#8 = _), rfl, rfl⟩)⟩
theorem Laws.Encoding.adcAbs (w : Addr) : Statement (.adcAbs w) :=
  ⟨rfl, rfl, .inr (.inr ⟨.adcAbs, w, (rfl : fullEntry 0x6D#8 = _), rfl, rfl⟩)⟩
theorem Laws.Encoding.adcAbx (w : Addr) : Statement (.adcAbx w) :=
  ⟨rfl, rfl, .inr (.inr ⟨.adcAbx, w, (rfl : fullEntry 0x7D#8 = _), rfl, rfl⟩)⟩
theorem Laws.Encoding.adcAby (w : Addr) : Statement (.adcAby w) :=
  ⟨rfl, rfl, .inr (.inr ⟨.adcAby, w, (rfl : fullEntry 0x79#8 = _), rfl, rfl⟩)⟩
theorem Laws.Encoding.adcIzx (zp : Byte) : Statement (.adcIzx zp) :=
  ⟨rfl, rfl, .inr (.inl ⟨.adcIzx, zp, (rfl : fullEntry 0x61#8 = _), rfl, rfl⟩)⟩
theorem Laws.Encoding.adcIzy (zp : Byte) : Statement (.adcIzy zp) :=
  ⟨rfl, rfl, .inr (.inl ⟨.adcIzy, zp, (rfl : fullEntry 0x71#8 = _), rfl, rfl⟩)⟩
theorem Laws.Encoding.sbcImm (v : Byte) : Statement (.sbcImm v) :=
  ⟨rfl, rfl, .inr (.inl ⟨.sbcImm, v, (rfl : fullEntry 0xE9#8 = _), rfl, rfl⟩)⟩
theorem Laws.Encoding.sbcZp (zp : Byte) : Statement (.sbcZp zp) :=
  ⟨rfl, rfl, .inr (.inl ⟨.sbcZp, zp, (rfl : fullEntry 0xE5#8 = _), rfl, rfl⟩)⟩
theorem Laws.Encoding.sbcZpx (zp : Byte) : Statement (.sbcZpx zp) :=
  ⟨rfl, rfl, .inr (.inl ⟨.sbcZpx, zp, (rfl : fullEntry 0xF5#8 = _), rfl, rfl⟩)⟩
theorem Laws.Encoding.sbcAbs (w : Addr) : Statement (.sbcAbs w) :=
  ⟨rfl, rfl, .inr (.inr ⟨.sbcAbs, w, (rfl : fullEntry 0xED#8 = _), rfl, rfl⟩)⟩
theorem Laws.Encoding.sbcAbx (w : Addr) : Statement (.sbcAbx w) :=
  ⟨rfl, rfl, .inr (.inr ⟨.sbcAbx, w, (rfl : fullEntry 0xFD#8 = _), rfl, rfl⟩)⟩
theorem Laws.Encoding.sbcAby (w : Addr) : Statement (.sbcAby w) :=
  ⟨rfl, rfl, .inr (.inr ⟨.sbcAby, w, (rfl : fullEntry 0xF9#8 = _), rfl, rfl⟩)⟩
theorem Laws.Encoding.sbcIzx (zp : Byte) : Statement (.sbcIzx zp) :=
  ⟨rfl, rfl, .inr (.inl ⟨.sbcIzx, zp, (rfl : fullEntry 0xE1#8 = _), rfl, rfl⟩)⟩
theorem Laws.Encoding.sbcIzy (zp : Byte) : Statement (.sbcIzy zp) :=
  ⟨rfl, rfl, .inr (.inl ⟨.sbcIzy, zp, (rfl : fullEntry 0xF1#8 = _), rfl, rfl⟩)⟩
theorem Laws.Encoding.cmpImm (v : Byte) : Statement (.cmpImm v) :=
  ⟨rfl, rfl, .inr (.inl ⟨.cmpImm, v, (rfl : fullEntry 0xC9#8 = _), rfl, rfl⟩)⟩
theorem Laws.Encoding.cmpZp (zp : Byte) : Statement (.cmpZp zp) :=
  ⟨rfl, rfl, .inr (.inl ⟨.cmpZp, zp, (rfl : fullEntry 0xC5#8 = _), rfl, rfl⟩)⟩
theorem Laws.Encoding.cmpZpx (zp : Byte) : Statement (.cmpZpx zp) :=
  ⟨rfl, rfl, .inr (.inl ⟨.cmpZpx, zp, (rfl : fullEntry 0xD5#8 = _), rfl, rfl⟩)⟩
theorem Laws.Encoding.cmpAbs (w : Addr) : Statement (.cmpAbs w) :=
  ⟨rfl, rfl, .inr (.inr ⟨.cmpAbs, w, (rfl : fullEntry 0xCD#8 = _), rfl, rfl⟩)⟩
theorem Laws.Encoding.cmpAbx (w : Addr) : Statement (.cmpAbx w) :=
  ⟨rfl, rfl, .inr (.inr ⟨.cmpAbx, w, (rfl : fullEntry 0xDD#8 = _), rfl, rfl⟩)⟩
theorem Laws.Encoding.cmpAby (w : Addr) : Statement (.cmpAby w) :=
  ⟨rfl, rfl, .inr (.inr ⟨.cmpAby, w, (rfl : fullEntry 0xD9#8 = _), rfl, rfl⟩)⟩
theorem Laws.Encoding.cmpIzx (zp : Byte) : Statement (.cmpIzx zp) :=
  ⟨rfl, rfl, .inr (.inl ⟨.cmpIzx, zp, (rfl : fullEntry 0xC1#8 = _), rfl, rfl⟩)⟩
theorem Laws.Encoding.cmpIzy (zp : Byte) : Statement (.cmpIzy zp) :=
  ⟨rfl, rfl, .inr (.inl ⟨.cmpIzy, zp, (rfl : fullEntry 0xD1#8 = _), rfl, rfl⟩)⟩
theorem Laws.Encoding.cpxImm (v : Byte) : Statement (.cpxImm v) :=
  ⟨rfl, rfl, .inr (.inl ⟨.cpxImm, v, (rfl : fullEntry 0xE0#8 = _), rfl, rfl⟩)⟩
theorem Laws.Encoding.cpxZp (zp : Byte) : Statement (.cpxZp zp) :=
  ⟨rfl, rfl, .inr (.inl ⟨.cpxZp, zp, (rfl : fullEntry 0xE4#8 = _), rfl, rfl⟩)⟩
theorem Laws.Encoding.cpxAbs (w : Addr) : Statement (.cpxAbs w) :=
  ⟨rfl, rfl, .inr (.inr ⟨.cpxAbs, w, (rfl : fullEntry 0xEC#8 = _), rfl, rfl⟩)⟩
theorem Laws.Encoding.cpyImm (v : Byte) : Statement (.cpyImm v) :=
  ⟨rfl, rfl, .inr (.inl ⟨.cpyImm, v, (rfl : fullEntry 0xC0#8 = _), rfl, rfl⟩)⟩
theorem Laws.Encoding.cpyZp (zp : Byte) : Statement (.cpyZp zp) :=
  ⟨rfl, rfl, .inr (.inl ⟨.cpyZp, zp, (rfl : fullEntry 0xC4#8 = _), rfl, rfl⟩)⟩
theorem Laws.Encoding.cpyAbs (w : Addr) : Statement (.cpyAbs w) :=
  ⟨rfl, rfl, .inr (.inr ⟨.cpyAbs, w, (rfl : fullEntry 0xCC#8 = _), rfl, rfl⟩)⟩
theorem Laws.Encoding.aslAcc : Statement .aslAcc :=
  ⟨rfl, rfl, .inl ⟨(rfl : fullEntry 0x0A#8 = _), rfl⟩⟩
theorem Laws.Encoding.aslZp (zp : Byte) : Statement (.aslZp zp) :=
  ⟨rfl, rfl, .inr (.inl ⟨.aslZp, zp, (rfl : fullEntry 0x06#8 = _), rfl, rfl⟩)⟩
theorem Laws.Encoding.aslZpx (zp : Byte) : Statement (.aslZpx zp) :=
  ⟨rfl, rfl, .inr (.inl ⟨.aslZpx, zp, (rfl : fullEntry 0x16#8 = _), rfl, rfl⟩)⟩
theorem Laws.Encoding.aslAbs (w : Addr) : Statement (.aslAbs w) :=
  ⟨rfl, rfl, .inr (.inr ⟨.aslAbs, w, (rfl : fullEntry 0x0E#8 = _), rfl, rfl⟩)⟩
theorem Laws.Encoding.aslAbx (w : Addr) : Statement (.aslAbx w) :=
  ⟨rfl, rfl, .inr (.inr ⟨.aslAbx, w, (rfl : fullEntry 0x1E#8 = _), rfl, rfl⟩)⟩
theorem Laws.Encoding.lsrAcc : Statement .lsrAcc :=
  ⟨rfl, rfl, .inl ⟨(rfl : fullEntry 0x4A#8 = _), rfl⟩⟩
theorem Laws.Encoding.lsrZp (zp : Byte) : Statement (.lsrZp zp) :=
  ⟨rfl, rfl, .inr (.inl ⟨.lsrZp, zp, (rfl : fullEntry 0x46#8 = _), rfl, rfl⟩)⟩
theorem Laws.Encoding.lsrZpx (zp : Byte) : Statement (.lsrZpx zp) :=
  ⟨rfl, rfl, .inr (.inl ⟨.lsrZpx, zp, (rfl : fullEntry 0x56#8 = _), rfl, rfl⟩)⟩
theorem Laws.Encoding.lsrAbs (w : Addr) : Statement (.lsrAbs w) :=
  ⟨rfl, rfl, .inr (.inr ⟨.lsrAbs, w, (rfl : fullEntry 0x4E#8 = _), rfl, rfl⟩)⟩
theorem Laws.Encoding.lsrAbx (w : Addr) : Statement (.lsrAbx w) :=
  ⟨rfl, rfl, .inr (.inr ⟨.lsrAbx, w, (rfl : fullEntry 0x5E#8 = _), rfl, rfl⟩)⟩
theorem Laws.Encoding.rolAcc : Statement .rolAcc :=
  ⟨rfl, rfl, .inl ⟨(rfl : fullEntry 0x2A#8 = _), rfl⟩⟩
theorem Laws.Encoding.rolZp (zp : Byte) : Statement (.rolZp zp) :=
  ⟨rfl, rfl, .inr (.inl ⟨.rolZp, zp, (rfl : fullEntry 0x26#8 = _), rfl, rfl⟩)⟩
theorem Laws.Encoding.rolZpx (zp : Byte) : Statement (.rolZpx zp) :=
  ⟨rfl, rfl, .inr (.inl ⟨.rolZpx, zp, (rfl : fullEntry 0x36#8 = _), rfl, rfl⟩)⟩
theorem Laws.Encoding.rolAbs (w : Addr) : Statement (.rolAbs w) :=
  ⟨rfl, rfl, .inr (.inr ⟨.rolAbs, w, (rfl : fullEntry 0x2E#8 = _), rfl, rfl⟩)⟩
theorem Laws.Encoding.rolAbx (w : Addr) : Statement (.rolAbx w) :=
  ⟨rfl, rfl, .inr (.inr ⟨.rolAbx, w, (rfl : fullEntry 0x3E#8 = _), rfl, rfl⟩)⟩
theorem Laws.Encoding.rorAcc : Statement .rorAcc :=
  ⟨rfl, rfl, .inl ⟨(rfl : fullEntry 0x6A#8 = _), rfl⟩⟩
theorem Laws.Encoding.rorZp (zp : Byte) : Statement (.rorZp zp) :=
  ⟨rfl, rfl, .inr (.inl ⟨.rorZp, zp, (rfl : fullEntry 0x66#8 = _), rfl, rfl⟩)⟩
theorem Laws.Encoding.rorZpx (zp : Byte) : Statement (.rorZpx zp) :=
  ⟨rfl, rfl, .inr (.inl ⟨.rorZpx, zp, (rfl : fullEntry 0x76#8 = _), rfl, rfl⟩)⟩
theorem Laws.Encoding.rorAbs (w : Addr) : Statement (.rorAbs w) :=
  ⟨rfl, rfl, .inr (.inr ⟨.rorAbs, w, (rfl : fullEntry 0x6E#8 = _), rfl, rfl⟩)⟩
theorem Laws.Encoding.rorAbx (w : Addr) : Statement (.rorAbx w) :=
  ⟨rfl, rfl, .inr (.inr ⟨.rorAbx, w, (rfl : fullEntry 0x7E#8 = _), rfl, rfl⟩)⟩
theorem Laws.Encoding.incZp (zp : Byte) : Statement (.incZp zp) :=
  ⟨rfl, rfl, .inr (.inl ⟨.incZp, zp, (rfl : fullEntry 0xE6#8 = _), rfl, rfl⟩)⟩
theorem Laws.Encoding.incZpx (zp : Byte) : Statement (.incZpx zp) :=
  ⟨rfl, rfl, .inr (.inl ⟨.incZpx, zp, (rfl : fullEntry 0xF6#8 = _), rfl, rfl⟩)⟩
theorem Laws.Encoding.incAbs (w : Addr) : Statement (.incAbs w) :=
  ⟨rfl, rfl, .inr (.inr ⟨.incAbs, w, (rfl : fullEntry 0xEE#8 = _), rfl, rfl⟩)⟩
theorem Laws.Encoding.incAbx (w : Addr) : Statement (.incAbx w) :=
  ⟨rfl, rfl, .inr (.inr ⟨.incAbx, w, (rfl : fullEntry 0xFE#8 = _), rfl, rfl⟩)⟩
theorem Laws.Encoding.decZp (zp : Byte) : Statement (.decZp zp) :=
  ⟨rfl, rfl, .inr (.inl ⟨.decZp, zp, (rfl : fullEntry 0xC6#8 = _), rfl, rfl⟩)⟩
theorem Laws.Encoding.decZpx (zp : Byte) : Statement (.decZpx zp) :=
  ⟨rfl, rfl, .inr (.inl ⟨.decZpx, zp, (rfl : fullEntry 0xD6#8 = _), rfl, rfl⟩)⟩
theorem Laws.Encoding.decAbs (w : Addr) : Statement (.decAbs w) :=
  ⟨rfl, rfl, .inr (.inr ⟨.decAbs, w, (rfl : fullEntry 0xCE#8 = _), rfl, rfl⟩)⟩
theorem Laws.Encoding.decAbx (w : Addr) : Statement (.decAbx w) :=
  ⟨rfl, rfl, .inr (.inr ⟨.decAbx, w, (rfl : fullEntry 0xDE#8 = _), rfl, rfl⟩)⟩
theorem Laws.Encoding.inx : Statement .inx :=
  ⟨rfl, rfl, .inl ⟨(rfl : fullEntry 0xE8#8 = _), rfl⟩⟩
theorem Laws.Encoding.dex : Statement .dex :=
  ⟨rfl, rfl, .inl ⟨(rfl : fullEntry 0xCA#8 = _), rfl⟩⟩
theorem Laws.Encoding.iny : Statement .iny :=
  ⟨rfl, rfl, .inl ⟨(rfl : fullEntry 0xC8#8 = _), rfl⟩⟩
theorem Laws.Encoding.dey : Statement .dey :=
  ⟨rfl, rfl, .inl ⟨(rfl : fullEntry 0x88#8 = _), rfl⟩⟩
theorem Laws.Encoding.ldaImm (v : Byte) : Statement (.ldaImm v) :=
  ⟨rfl, rfl, .inr (.inl ⟨.ldaImm, v, (rfl : fullEntry 0xA9#8 = _), rfl, rfl⟩)⟩
theorem Laws.Encoding.ldaZp (zp : Byte) : Statement (.ldaZp zp) :=
  ⟨rfl, rfl, .inr (.inl ⟨.ldaZp, zp, (rfl : fullEntry 0xA5#8 = _), rfl, rfl⟩)⟩
theorem Laws.Encoding.ldaZpx (zp : Byte) : Statement (.ldaZpx zp) :=
  ⟨rfl, rfl, .inr (.inl ⟨.ldaZpx, zp, (rfl : fullEntry 0xB5#8 = _), rfl, rfl⟩)⟩
theorem Laws.Encoding.ldaAbs (w : Addr) : Statement (.ldaAbs w) :=
  ⟨rfl, rfl, .inr (.inr ⟨.ldaAbs, w, (rfl : fullEntry 0xAD#8 = _), rfl, rfl⟩)⟩
theorem Laws.Encoding.ldaAbx (w : Addr) : Statement (.ldaAbx w) :=
  ⟨rfl, rfl, .inr (.inr ⟨.ldaAbx, w, (rfl : fullEntry 0xBD#8 = _), rfl, rfl⟩)⟩
theorem Laws.Encoding.ldaAby (w : Addr) : Statement (.ldaAby w) :=
  ⟨rfl, rfl, .inr (.inr ⟨.ldaAby, w, (rfl : fullEntry 0xB9#8 = _), rfl, rfl⟩)⟩
theorem Laws.Encoding.ldaIzx (zp : Byte) : Statement (.ldaIzx zp) :=
  ⟨rfl, rfl, .inr (.inl ⟨.ldaIzx, zp, (rfl : fullEntry 0xA1#8 = _), rfl, rfl⟩)⟩
theorem Laws.Encoding.ldaIzy (zp : Byte) : Statement (.ldaIzy zp) :=
  ⟨rfl, rfl, .inr (.inl ⟨.ldaIzy, zp, (rfl : fullEntry 0xB1#8 = _), rfl, rfl⟩)⟩
theorem Laws.Encoding.ldxImm (v : Byte) : Statement (.ldxImm v) :=
  ⟨rfl, rfl, .inr (.inl ⟨.ldxImm, v, (rfl : fullEntry 0xA2#8 = _), rfl, rfl⟩)⟩
theorem Laws.Encoding.ldxZp (zp : Byte) : Statement (.ldxZp zp) :=
  ⟨rfl, rfl, .inr (.inl ⟨.ldxZp, zp, (rfl : fullEntry 0xA6#8 = _), rfl, rfl⟩)⟩
theorem Laws.Encoding.ldxZpy (zp : Byte) : Statement (.ldxZpy zp) :=
  ⟨rfl, rfl, .inr (.inl ⟨.ldxZpy, zp, (rfl : fullEntry 0xB6#8 = _), rfl, rfl⟩)⟩
theorem Laws.Encoding.ldxAbs (w : Addr) : Statement (.ldxAbs w) :=
  ⟨rfl, rfl, .inr (.inr ⟨.ldxAbs, w, (rfl : fullEntry 0xAE#8 = _), rfl, rfl⟩)⟩
theorem Laws.Encoding.ldxAby (w : Addr) : Statement (.ldxAby w) :=
  ⟨rfl, rfl, .inr (.inr ⟨.ldxAby, w, (rfl : fullEntry 0xBE#8 = _), rfl, rfl⟩)⟩
theorem Laws.Encoding.ldyImm (v : Byte) : Statement (.ldyImm v) :=
  ⟨rfl, rfl, .inr (.inl ⟨.ldyImm, v, (rfl : fullEntry 0xA0#8 = _), rfl, rfl⟩)⟩
theorem Laws.Encoding.ldyZp (zp : Byte) : Statement (.ldyZp zp) :=
  ⟨rfl, rfl, .inr (.inl ⟨.ldyZp, zp, (rfl : fullEntry 0xA4#8 = _), rfl, rfl⟩)⟩
theorem Laws.Encoding.ldyZpx (zp : Byte) : Statement (.ldyZpx zp) :=
  ⟨rfl, rfl, .inr (.inl ⟨.ldyZpx, zp, (rfl : fullEntry 0xB4#8 = _), rfl, rfl⟩)⟩
theorem Laws.Encoding.ldyAbs (w : Addr) : Statement (.ldyAbs w) :=
  ⟨rfl, rfl, .inr (.inr ⟨.ldyAbs, w, (rfl : fullEntry 0xAC#8 = _), rfl, rfl⟩)⟩
theorem Laws.Encoding.ldyAbx (w : Addr) : Statement (.ldyAbx w) :=
  ⟨rfl, rfl, .inr (.inr ⟨.ldyAbx, w, (rfl : fullEntry 0xBC#8 = _), rfl, rfl⟩)⟩
theorem Laws.Encoding.staZp (zp : Byte) : Statement (.staZp zp) :=
  ⟨rfl, rfl, .inr (.inl ⟨.staZp, zp, (rfl : fullEntry 0x85#8 = _), rfl, rfl⟩)⟩
theorem Laws.Encoding.staZpx (zp : Byte) : Statement (.staZpx zp) :=
  ⟨rfl, rfl, .inr (.inl ⟨.staZpx, zp, (rfl : fullEntry 0x95#8 = _), rfl, rfl⟩)⟩
theorem Laws.Encoding.staAbs (w : Addr) : Statement (.staAbs w) :=
  ⟨rfl, rfl, .inr (.inr ⟨.staAbs, w, (rfl : fullEntry 0x8D#8 = _), rfl, rfl⟩)⟩
theorem Laws.Encoding.staAbx (w : Addr) : Statement (.staAbx w) :=
  ⟨rfl, rfl, .inr (.inr ⟨.staAbx, w, (rfl : fullEntry 0x9D#8 = _), rfl, rfl⟩)⟩
theorem Laws.Encoding.staAby (w : Addr) : Statement (.staAby w) :=
  ⟨rfl, rfl, .inr (.inr ⟨.staAby, w, (rfl : fullEntry 0x99#8 = _), rfl, rfl⟩)⟩
theorem Laws.Encoding.staIzx (zp : Byte) : Statement (.staIzx zp) :=
  ⟨rfl, rfl, .inr (.inl ⟨.staIzx, zp, (rfl : fullEntry 0x81#8 = _), rfl, rfl⟩)⟩
theorem Laws.Encoding.staIzy (zp : Byte) : Statement (.staIzy zp) :=
  ⟨rfl, rfl, .inr (.inl ⟨.staIzy, zp, (rfl : fullEntry 0x91#8 = _), rfl, rfl⟩)⟩
theorem Laws.Encoding.stxZp (zp : Byte) : Statement (.stxZp zp) :=
  ⟨rfl, rfl, .inr (.inl ⟨.stxZp, zp, (rfl : fullEntry 0x86#8 = _), rfl, rfl⟩)⟩
theorem Laws.Encoding.stxZpy (zp : Byte) : Statement (.stxZpy zp) :=
  ⟨rfl, rfl, .inr (.inl ⟨.stxZpy, zp, (rfl : fullEntry 0x96#8 = _), rfl, rfl⟩)⟩
theorem Laws.Encoding.stxAbs (w : Addr) : Statement (.stxAbs w) :=
  ⟨rfl, rfl, .inr (.inr ⟨.stxAbs, w, (rfl : fullEntry 0x8E#8 = _), rfl, rfl⟩)⟩
theorem Laws.Encoding.styZp (zp : Byte) : Statement (.styZp zp) :=
  ⟨rfl, rfl, .inr (.inl ⟨.styZp, zp, (rfl : fullEntry 0x84#8 = _), rfl, rfl⟩)⟩
theorem Laws.Encoding.styZpx (zp : Byte) : Statement (.styZpx zp) :=
  ⟨rfl, rfl, .inr (.inl ⟨.styZpx, zp, (rfl : fullEntry 0x94#8 = _), rfl, rfl⟩)⟩
theorem Laws.Encoding.styAbs (w : Addr) : Statement (.styAbs w) :=
  ⟨rfl, rfl, .inr (.inr ⟨.styAbs, w, (rfl : fullEntry 0x8C#8 = _), rfl, rfl⟩)⟩
theorem Laws.Encoding.tax : Statement .tax :=
  ⟨rfl, rfl, .inl ⟨(rfl : fullEntry 0xAA#8 = _), rfl⟩⟩
theorem Laws.Encoding.txa : Statement .txa :=
  ⟨rfl, rfl, .inl ⟨(rfl : fullEntry 0x8A#8 = _), rfl⟩⟩
theorem Laws.Encoding.tay : Statement .tay :=
  ⟨rfl, rfl, .inl ⟨(rfl : fullEntry 0xA8#8 = _), rfl⟩⟩
theorem Laws.Encoding.tya : Statement .tya :=
  ⟨rfl, rfl, .inl ⟨(rfl : fullEntry 0x98#8 = _), rfl⟩⟩
theorem Laws.Encoding.tsx : Statement .tsx :=
  ⟨rfl, rfl, .inl ⟨(rfl : fullEntry 0xBA#8 = _), rfl⟩⟩
theorem Laws.Encoding.txs : Statement .txs :=
  ⟨rfl, rfl, .inl ⟨(rfl : fullEntry 0x9A#8 = _), rfl⟩⟩
theorem Laws.Encoding.bpl (off : Byte) : Statement (.bpl off) :=
  ⟨rfl, rfl, .inr (.inl ⟨.bpl, off, (rfl : fullEntry 0x10#8 = _), rfl, rfl⟩)⟩
theorem Laws.Encoding.bmi (off : Byte) : Statement (.bmi off) :=
  ⟨rfl, rfl, .inr (.inl ⟨.bmi, off, (rfl : fullEntry 0x30#8 = _), rfl, rfl⟩)⟩
theorem Laws.Encoding.bvc (off : Byte) : Statement (.bvc off) :=
  ⟨rfl, rfl, .inr (.inl ⟨.bvc, off, (rfl : fullEntry 0x50#8 = _), rfl, rfl⟩)⟩
theorem Laws.Encoding.bvs (off : Byte) : Statement (.bvs off) :=
  ⟨rfl, rfl, .inr (.inl ⟨.bvs, off, (rfl : fullEntry 0x70#8 = _), rfl, rfl⟩)⟩
theorem Laws.Encoding.bcc (off : Byte) : Statement (.bcc off) :=
  ⟨rfl, rfl, .inr (.inl ⟨.bcc, off, (rfl : fullEntry 0x90#8 = _), rfl, rfl⟩)⟩
theorem Laws.Encoding.bcs (off : Byte) : Statement (.bcs off) :=
  ⟨rfl, rfl, .inr (.inl ⟨.bcs, off, (rfl : fullEntry 0xB0#8 = _), rfl, rfl⟩)⟩
theorem Laws.Encoding.bne (off : Byte) : Statement (.bne off) :=
  ⟨rfl, rfl, .inr (.inl ⟨.bne, off, (rfl : fullEntry 0xD0#8 = _), rfl, rfl⟩)⟩
theorem Laws.Encoding.beq (off : Byte) : Statement (.beq off) :=
  ⟨rfl, rfl, .inr (.inl ⟨.beq, off, (rfl : fullEntry 0xF0#8 = _), rfl, rfl⟩)⟩
theorem Laws.Encoding.pha : Statement .pha :=
  ⟨rfl, rfl, .inl ⟨(rfl : fullEntry 0x48#8 = _), rfl⟩⟩
theorem Laws.Encoding.pla : Statement .pla :=
  ⟨rfl, rfl, .inl ⟨(rfl : fullEntry 0x68#8 = _), rfl⟩⟩
theorem Laws.Encoding.php : Statement .php :=
  ⟨rfl, rfl, .inl ⟨(rfl : fullEntry 0x08#8 = _), rfl⟩⟩
theorem Laws.Encoding.plp : Statement .plp :=
  ⟨rfl, rfl, .inl ⟨(rfl : fullEntry 0x28#8 = _), rfl⟩⟩
theorem Laws.Encoding.jmpAbs (w : Addr) : Statement (.jmpAbs w) :=
  ⟨rfl, rfl, .inr (.inr ⟨.jmpAbs, w, (rfl : fullEntry 0x4C#8 = _), rfl, rfl⟩)⟩
theorem Laws.Encoding.jmpInd (p : Addr) : Statement (.jmpInd p) :=
  ⟨rfl, rfl, .inr (.inr ⟨.jmpInd, p, (rfl : fullEntry 0x6C#8 = _), rfl, rfl⟩)⟩
theorem Laws.Encoding.jsr (w : Addr) : Statement (.jsr w) :=
  ⟨rfl, rfl, .inr (.inr ⟨.jsr, w, (rfl : fullEntry 0x20#8 = _), rfl, rfl⟩)⟩
theorem Laws.Encoding.rts : Statement .rts :=
  ⟨rfl, rfl, .inl ⟨(rfl : fullEntry 0x60#8 = _), rfl⟩⟩
theorem Laws.Encoding.rti : Statement .rti :=
  ⟨rfl, rfl, .inl ⟨(rfl : fullEntry 0x40#8 = _), rfl⟩⟩
theorem Laws.Encoding.clc : Statement .clc :=
  ⟨rfl, rfl, .inl ⟨(rfl : fullEntry 0x18#8 = _), rfl⟩⟩
theorem Laws.Encoding.sec : Statement .sec :=
  ⟨rfl, rfl, .inl ⟨(rfl : fullEntry 0x38#8 = _), rfl⟩⟩
theorem Laws.Encoding.cli : Statement .cli :=
  ⟨rfl, rfl, .inl ⟨(rfl : fullEntry 0x58#8 = _), rfl⟩⟩
theorem Laws.Encoding.sei : Statement .sei :=
  ⟨rfl, rfl, .inl ⟨(rfl : fullEntry 0x78#8 = _), rfl⟩⟩
theorem Laws.Encoding.clv : Statement .clv :=
  ⟨rfl, rfl, .inl ⟨(rfl : fullEntry 0xB8#8 = _), rfl⟩⟩
theorem Laws.Encoding.cld : Statement .cld :=
  ⟨rfl, rfl, .inl ⟨(rfl : fullEntry 0xD8#8 = _), rfl⟩⟩
theorem Laws.Encoding.sed : Statement .sed :=
  ⟨rfl, rfl, .inl ⟨(rfl : fullEntry 0xF8#8 = _), rfl⟩⟩
theorem Laws.Encoding.nop : Statement .nop :=
  ⟨rfl, rfl, .inl ⟨(rfl : fullEntry 0xEA#8 = _), rfl⟩⟩
theorem Laws.Encoding.brk : Statement .brk :=
  ⟨rfl, rfl, .inl ⟨(rfl : fullEntry 0x00#8 = _), rfl⟩⟩

/-- The facts of every instruction's encoding, together. -/
theorem encoding_facts (i : Instr) : Laws.Encoding.Statement i :=
  match i with
  | .oraImm v => Laws.Encoding.oraImm v
  | .oraZp zp => Laws.Encoding.oraZp zp
  | .oraZpx zp => Laws.Encoding.oraZpx zp
  | .oraAbs w => Laws.Encoding.oraAbs w
  | .oraAbx w => Laws.Encoding.oraAbx w
  | .oraAby w => Laws.Encoding.oraAby w
  | .oraIzx zp => Laws.Encoding.oraIzx zp
  | .oraIzy zp => Laws.Encoding.oraIzy zp
  | .andImm v => Laws.Encoding.andImm v
  | .andZp zp => Laws.Encoding.andZp zp
  | .andZpx zp => Laws.Encoding.andZpx zp
  | .andAbs w => Laws.Encoding.andAbs w
  | .andAbx w => Laws.Encoding.andAbx w
  | .andAby w => Laws.Encoding.andAby w
  | .andIzx zp => Laws.Encoding.andIzx zp
  | .andIzy zp => Laws.Encoding.andIzy zp
  | .eorImm v => Laws.Encoding.eorImm v
  | .eorZp zp => Laws.Encoding.eorZp zp
  | .eorZpx zp => Laws.Encoding.eorZpx zp
  | .eorAbs w => Laws.Encoding.eorAbs w
  | .eorAbx w => Laws.Encoding.eorAbx w
  | .eorAby w => Laws.Encoding.eorAby w
  | .eorIzx zp => Laws.Encoding.eorIzx zp
  | .eorIzy zp => Laws.Encoding.eorIzy zp
  | .bitZp zp => Laws.Encoding.bitZp zp
  | .bitAbs w => Laws.Encoding.bitAbs w
  | .adcImm v => Laws.Encoding.adcImm v
  | .adcZp zp => Laws.Encoding.adcZp zp
  | .adcZpx zp => Laws.Encoding.adcZpx zp
  | .adcAbs w => Laws.Encoding.adcAbs w
  | .adcAbx w => Laws.Encoding.adcAbx w
  | .adcAby w => Laws.Encoding.adcAby w
  | .adcIzx zp => Laws.Encoding.adcIzx zp
  | .adcIzy zp => Laws.Encoding.adcIzy zp
  | .sbcImm v => Laws.Encoding.sbcImm v
  | .sbcZp zp => Laws.Encoding.sbcZp zp
  | .sbcZpx zp => Laws.Encoding.sbcZpx zp
  | .sbcAbs w => Laws.Encoding.sbcAbs w
  | .sbcAbx w => Laws.Encoding.sbcAbx w
  | .sbcAby w => Laws.Encoding.sbcAby w
  | .sbcIzx zp => Laws.Encoding.sbcIzx zp
  | .sbcIzy zp => Laws.Encoding.sbcIzy zp
  | .cmpImm v => Laws.Encoding.cmpImm v
  | .cmpZp zp => Laws.Encoding.cmpZp zp
  | .cmpZpx zp => Laws.Encoding.cmpZpx zp
  | .cmpAbs w => Laws.Encoding.cmpAbs w
  | .cmpAbx w => Laws.Encoding.cmpAbx w
  | .cmpAby w => Laws.Encoding.cmpAby w
  | .cmpIzx zp => Laws.Encoding.cmpIzx zp
  | .cmpIzy zp => Laws.Encoding.cmpIzy zp
  | .cpxImm v => Laws.Encoding.cpxImm v
  | .cpxZp zp => Laws.Encoding.cpxZp zp
  | .cpxAbs w => Laws.Encoding.cpxAbs w
  | .cpyImm v => Laws.Encoding.cpyImm v
  | .cpyZp zp => Laws.Encoding.cpyZp zp
  | .cpyAbs w => Laws.Encoding.cpyAbs w
  | .aslAcc => Laws.Encoding.aslAcc
  | .aslZp zp => Laws.Encoding.aslZp zp
  | .aslZpx zp => Laws.Encoding.aslZpx zp
  | .aslAbs w => Laws.Encoding.aslAbs w
  | .aslAbx w => Laws.Encoding.aslAbx w
  | .lsrAcc => Laws.Encoding.lsrAcc
  | .lsrZp zp => Laws.Encoding.lsrZp zp
  | .lsrZpx zp => Laws.Encoding.lsrZpx zp
  | .lsrAbs w => Laws.Encoding.lsrAbs w
  | .lsrAbx w => Laws.Encoding.lsrAbx w
  | .rolAcc => Laws.Encoding.rolAcc
  | .rolZp zp => Laws.Encoding.rolZp zp
  | .rolZpx zp => Laws.Encoding.rolZpx zp
  | .rolAbs w => Laws.Encoding.rolAbs w
  | .rolAbx w => Laws.Encoding.rolAbx w
  | .rorAcc => Laws.Encoding.rorAcc
  | .rorZp zp => Laws.Encoding.rorZp zp
  | .rorZpx zp => Laws.Encoding.rorZpx zp
  | .rorAbs w => Laws.Encoding.rorAbs w
  | .rorAbx w => Laws.Encoding.rorAbx w
  | .incZp zp => Laws.Encoding.incZp zp
  | .incZpx zp => Laws.Encoding.incZpx zp
  | .incAbs w => Laws.Encoding.incAbs w
  | .incAbx w => Laws.Encoding.incAbx w
  | .decZp zp => Laws.Encoding.decZp zp
  | .decZpx zp => Laws.Encoding.decZpx zp
  | .decAbs w => Laws.Encoding.decAbs w
  | .decAbx w => Laws.Encoding.decAbx w
  | .inx => Laws.Encoding.inx
  | .dex => Laws.Encoding.dex
  | .iny => Laws.Encoding.iny
  | .dey => Laws.Encoding.dey
  | .ldaImm v => Laws.Encoding.ldaImm v
  | .ldaZp zp => Laws.Encoding.ldaZp zp
  | .ldaZpx zp => Laws.Encoding.ldaZpx zp
  | .ldaAbs w => Laws.Encoding.ldaAbs w
  | .ldaAbx w => Laws.Encoding.ldaAbx w
  | .ldaAby w => Laws.Encoding.ldaAby w
  | .ldaIzx zp => Laws.Encoding.ldaIzx zp
  | .ldaIzy zp => Laws.Encoding.ldaIzy zp
  | .ldxImm v => Laws.Encoding.ldxImm v
  | .ldxZp zp => Laws.Encoding.ldxZp zp
  | .ldxZpy zp => Laws.Encoding.ldxZpy zp
  | .ldxAbs w => Laws.Encoding.ldxAbs w
  | .ldxAby w => Laws.Encoding.ldxAby w
  | .ldyImm v => Laws.Encoding.ldyImm v
  | .ldyZp zp => Laws.Encoding.ldyZp zp
  | .ldyZpx zp => Laws.Encoding.ldyZpx zp
  | .ldyAbs w => Laws.Encoding.ldyAbs w
  | .ldyAbx w => Laws.Encoding.ldyAbx w
  | .staZp zp => Laws.Encoding.staZp zp
  | .staZpx zp => Laws.Encoding.staZpx zp
  | .staAbs w => Laws.Encoding.staAbs w
  | .staAbx w => Laws.Encoding.staAbx w
  | .staAby w => Laws.Encoding.staAby w
  | .staIzx zp => Laws.Encoding.staIzx zp
  | .staIzy zp => Laws.Encoding.staIzy zp
  | .stxZp zp => Laws.Encoding.stxZp zp
  | .stxZpy zp => Laws.Encoding.stxZpy zp
  | .stxAbs w => Laws.Encoding.stxAbs w
  | .styZp zp => Laws.Encoding.styZp zp
  | .styZpx zp => Laws.Encoding.styZpx zp
  | .styAbs w => Laws.Encoding.styAbs w
  | .tax => Laws.Encoding.tax
  | .txa => Laws.Encoding.txa
  | .tay => Laws.Encoding.tay
  | .tya => Laws.Encoding.tya
  | .tsx => Laws.Encoding.tsx
  | .txs => Laws.Encoding.txs
  | .bpl off => Laws.Encoding.bpl off
  | .bmi off => Laws.Encoding.bmi off
  | .bvc off => Laws.Encoding.bvc off
  | .bvs off => Laws.Encoding.bvs off
  | .bcc off => Laws.Encoding.bcc off
  | .bcs off => Laws.Encoding.bcs off
  | .bne off => Laws.Encoding.bne off
  | .beq off => Laws.Encoding.beq off
  | .pha => Laws.Encoding.pha
  | .pla => Laws.Encoding.pla
  | .php => Laws.Encoding.php
  | .plp => Laws.Encoding.plp
  | .jmpAbs w => Laws.Encoding.jmpAbs w
  | .jmpInd p => Laws.Encoding.jmpInd p
  | .jsr w => Laws.Encoding.jsr w
  | .rts => Laws.Encoding.rts
  | .rti => Laws.Encoding.rti
  | .clc => Laws.Encoding.clc
  | .sec => Laws.Encoding.sec
  | .cli => Laws.Encoding.cli
  | .sei => Laws.Encoding.sei
  | .clv => Laws.Encoding.clv
  | .cld => Laws.Encoding.cld
  | .sed => Laws.Encoding.sed
  | .nop => Laws.Encoding.nop
  | .brk => Laws.Encoding.brk

end Sys2Proof
end

