-- ==== Sys2Proof/Tests/Slice0.lean ====
section
/-! SUPPORT. The model's own tests: the gate of well-formedness, a word for every constructor from the encodings of
spec/opcode_table.json, single steps from 95_test_vectors.md, and for every statement with hypotheses a state and operands
that meet them. -/

namespace Sys2Proof.Machine.Tests

/-! ### Helpers -/

/-- The state a step leaves, if it completes. -/
def stepped (s : State) : Option State :=
  match step s with
  | .next t => some t
  | .fault _ => none
  | .refused _ => none

/-- The fault a step stops with. -/
def stopped (s : State) : Option Fault :=
  match step s with
  | .next _ => none
  | .fault f => some f
  | .refused _ => none

/-- The byte at an address, if it can be read. -/
def byteAt (p : Addr) (s : State) : Option Byte :=
  match memRead p s with
  | .next v => some v
  | .fault _ => none
  | .refused _ => none

/-- A state with `pc` at an address and bytes there. -/
def prog (pc : Addr) (bytes : List Byte) (s : State) : State := pokeBytes pc bytes (s.withPC pc)

/-- A state with the given bytes in memory. -/
def hold (l : List (Addr × Byte)) (s : State) : State := l.foldl (fun t p => pokeBytes p.1 [p.2] t) s

/-- A state of a run with `EXT_OFFICIAL` true. -/
def gateOpen (s : State) : State := s.withCfg { s.cfg with extOfficial := true }

/-- A state of a run with `COLLABORATORS` true. -/
def openSystem (s : State) : State := s.withCfg { s.cfg with collaborators := true }

/-- Whether each word decodes, with nothing left over, to the instruction beside it. -/
def allDecode (l : List (List Byte × Instr)) : Bool :=
  l.all fun p =>
    match decode true p.1 with
    | .ok (i, rest) => i == p.2 && rest.isEmpty
    | .error _ => false

/-! ### Well-formedness -/

/-- The one check refuses an extension instruction while the gate is closed. -/
theorem test_wellFormed_refuses_closed_extension : (Instr.sbcImm 0x01#8).wellFormed false = false := by decide

theorem test_wellFormed_accepts_open_extension : (Instr.sbcImm 0x01#8).wellFormed true = true := by decide

theorem test_wellFormed_accepts_documented : (Instr.adcImm 0x01#8).wellFormed false = true := by decide

/-! ### A word of every constructor (bytes from opcode_table.json; operand byte 0x9C, operand word C234 as 34 C2) -/

/-- The words of the Logical family. -/
def logicalWords : List (List Byte × Instr) :=
    [([0x09#8, 0x9C#8], .oraImm 0x9C#8), ([0x05#8, 0x9C#8], .oraZp 0x9C#8), ([0x15#8, 0x9C#8], .oraZpx 0x9C#8),
     ([0x0D#8, 0x34#8, 0xC2#8], .oraAbs 0xC234#16), ([0x1D#8, 0x34#8, 0xC2#8], .oraAbx 0xC234#16), ([0x19#8, 0x34#8, 0xC2#8], .oraAby 0xC234#16),
     ([0x01#8, 0x9C#8], .oraIzx 0x9C#8), ([0x11#8, 0x9C#8], .oraIzy 0x9C#8), ([0x29#8, 0x9C#8], .andImm 0x9C#8),
     ([0x25#8, 0x9C#8], .andZp 0x9C#8), ([0x35#8, 0x9C#8], .andZpx 0x9C#8), ([0x2D#8, 0x34#8, 0xC2#8], .andAbs 0xC234#16)] ++
    [([0x3D#8, 0x34#8, 0xC2#8], .andAbx 0xC234#16), ([0x39#8, 0x34#8, 0xC2#8], .andAby 0xC234#16), ([0x21#8, 0x9C#8], .andIzx 0x9C#8),
     ([0x31#8, 0x9C#8], .andIzy 0x9C#8), ([0x49#8, 0x9C#8], .eorImm 0x9C#8), ([0x45#8, 0x9C#8], .eorZp 0x9C#8),
     ([0x55#8, 0x9C#8], .eorZpx 0x9C#8), ([0x4D#8, 0x34#8, 0xC2#8], .eorAbs 0xC234#16), ([0x5D#8, 0x34#8, 0xC2#8], .eorAbx 0xC234#16),
     ([0x59#8, 0x34#8, 0xC2#8], .eorAby 0xC234#16), ([0x41#8, 0x9C#8], .eorIzx 0x9C#8), ([0x51#8, 0x9C#8], .eorIzy 0x9C#8)] ++
    [([0x24#8, 0x9C#8], .bitZp 0x9C#8), ([0x2C#8, 0x34#8, 0xC2#8], .bitAbs 0xC234#16)]

theorem test_decode_logical : allDecode logicalWords = true := by decide

/-- The words of the Arithmetic family. -/
def arithmeticWords : List (List Byte × Instr) :=
    [([0x69#8, 0x9C#8], .adcImm 0x9C#8), ([0x65#8, 0x9C#8], .adcZp 0x9C#8), ([0x75#8, 0x9C#8], .adcZpx 0x9C#8),
     ([0x6D#8, 0x34#8, 0xC2#8], .adcAbs 0xC234#16), ([0x7D#8, 0x34#8, 0xC2#8], .adcAbx 0xC234#16), ([0x79#8, 0x34#8, 0xC2#8], .adcAby 0xC234#16),
     ([0x61#8, 0x9C#8], .adcIzx 0x9C#8), ([0x71#8, 0x9C#8], .adcIzy 0x9C#8), ([0xE9#8, 0x9C#8], .sbcImm 0x9C#8),
     ([0xE5#8, 0x9C#8], .sbcZp 0x9C#8), ([0xF5#8, 0x9C#8], .sbcZpx 0x9C#8), ([0xED#8, 0x34#8, 0xC2#8], .sbcAbs 0xC234#16)] ++
    [([0xFD#8, 0x34#8, 0xC2#8], .sbcAbx 0xC234#16), ([0xF9#8, 0x34#8, 0xC2#8], .sbcAby 0xC234#16), ([0xE1#8, 0x9C#8], .sbcIzx 0x9C#8),
     ([0xF1#8, 0x9C#8], .sbcIzy 0x9C#8), ([0xC9#8, 0x9C#8], .cmpImm 0x9C#8), ([0xC5#8, 0x9C#8], .cmpZp 0x9C#8),
     ([0xD5#8, 0x9C#8], .cmpZpx 0x9C#8), ([0xCD#8, 0x34#8, 0xC2#8], .cmpAbs 0xC234#16), ([0xDD#8, 0x34#8, 0xC2#8], .cmpAbx 0xC234#16),
     ([0xD9#8, 0x34#8, 0xC2#8], .cmpAby 0xC234#16), ([0xC1#8, 0x9C#8], .cmpIzx 0x9C#8), ([0xD1#8, 0x9C#8], .cmpIzy 0x9C#8)] ++
    [([0xE0#8, 0x9C#8], .cpxImm 0x9C#8), ([0xE4#8, 0x9C#8], .cpxZp 0x9C#8), ([0xEC#8, 0x34#8, 0xC2#8], .cpxAbs 0xC234#16),
     ([0xC0#8, 0x9C#8], .cpyImm 0x9C#8), ([0xC4#8, 0x9C#8], .cpyZp 0x9C#8), ([0xCC#8, 0x34#8, 0xC2#8], .cpyAbs 0xC234#16)]

theorem test_decode_arithmetic : allDecode arithmeticWords = true := by decide

/-- The words of the Shift family. -/
def shiftWords : List (List Byte × Instr) :=
    [([0x0A#8], .aslAcc), ([0x06#8, 0x9C#8], .aslZp 0x9C#8), ([0x16#8, 0x9C#8], .aslZpx 0x9C#8),
     ([0x0E#8, 0x34#8, 0xC2#8], .aslAbs 0xC234#16), ([0x1E#8, 0x34#8, 0xC2#8], .aslAbx 0xC234#16), ([0x4A#8], .lsrAcc),
     ([0x46#8, 0x9C#8], .lsrZp 0x9C#8), ([0x56#8, 0x9C#8], .lsrZpx 0x9C#8), ([0x4E#8, 0x34#8, 0xC2#8], .lsrAbs 0xC234#16),
     ([0x5E#8, 0x34#8, 0xC2#8], .lsrAbx 0xC234#16), ([0x2A#8], .rolAcc), ([0x26#8, 0x9C#8], .rolZp 0x9C#8)] ++
    [([0x36#8, 0x9C#8], .rolZpx 0x9C#8), ([0x2E#8, 0x34#8, 0xC2#8], .rolAbs 0xC234#16), ([0x3E#8, 0x34#8, 0xC2#8], .rolAbx 0xC234#16),
     ([0x6A#8], .rorAcc), ([0x66#8, 0x9C#8], .rorZp 0x9C#8), ([0x76#8, 0x9C#8], .rorZpx 0x9C#8),
     ([0x6E#8, 0x34#8, 0xC2#8], .rorAbs 0xC234#16), ([0x7E#8, 0x34#8, 0xC2#8], .rorAbx 0xC234#16)]

theorem test_decode_shift : allDecode shiftWords = true := by decide

/-- The words of the IncDec family. -/
def incDecWords : List (List Byte × Instr) :=
    [([0xE6#8, 0x9C#8], .incZp 0x9C#8), ([0xF6#8, 0x9C#8], .incZpx 0x9C#8), ([0xEE#8, 0x34#8, 0xC2#8], .incAbs 0xC234#16),
     ([0xFE#8, 0x34#8, 0xC2#8], .incAbx 0xC234#16), ([0xC6#8, 0x9C#8], .decZp 0x9C#8), ([0xD6#8, 0x9C#8], .decZpx 0x9C#8),
     ([0xCE#8, 0x34#8, 0xC2#8], .decAbs 0xC234#16), ([0xDE#8, 0x34#8, 0xC2#8], .decAbx 0xC234#16), ([0xE8#8], .inx),
     ([0xCA#8], .dex), ([0xC8#8], .iny), ([0x88#8], .dey)]

theorem test_decode_incDec : allDecode incDecWords = true := by decide

/-- The words of the LoadStore family. -/
def loadStoreWords : List (List Byte × Instr) :=
    [([0xA9#8, 0x9C#8], .ldaImm 0x9C#8), ([0xA5#8, 0x9C#8], .ldaZp 0x9C#8), ([0xB5#8, 0x9C#8], .ldaZpx 0x9C#8),
     ([0xAD#8, 0x34#8, 0xC2#8], .ldaAbs 0xC234#16), ([0xBD#8, 0x34#8, 0xC2#8], .ldaAbx 0xC234#16), ([0xB9#8, 0x34#8, 0xC2#8], .ldaAby 0xC234#16),
     ([0xA1#8, 0x9C#8], .ldaIzx 0x9C#8), ([0xB1#8, 0x9C#8], .ldaIzy 0x9C#8), ([0xA2#8, 0x9C#8], .ldxImm 0x9C#8),
     ([0xA6#8, 0x9C#8], .ldxZp 0x9C#8), ([0xB6#8, 0x9C#8], .ldxZpy 0x9C#8), ([0xAE#8, 0x34#8, 0xC2#8], .ldxAbs 0xC234#16)] ++
    [([0xBE#8, 0x34#8, 0xC2#8], .ldxAby 0xC234#16), ([0xA0#8, 0x9C#8], .ldyImm 0x9C#8), ([0xA4#8, 0x9C#8], .ldyZp 0x9C#8),
     ([0xB4#8, 0x9C#8], .ldyZpx 0x9C#8), ([0xAC#8, 0x34#8, 0xC2#8], .ldyAbs 0xC234#16), ([0xBC#8, 0x34#8, 0xC2#8], .ldyAbx 0xC234#16),
     ([0x85#8, 0x9C#8], .staZp 0x9C#8), ([0x95#8, 0x9C#8], .staZpx 0x9C#8), ([0x8D#8, 0x34#8, 0xC2#8], .staAbs 0xC234#16),
     ([0x9D#8, 0x34#8, 0xC2#8], .staAbx 0xC234#16), ([0x99#8, 0x34#8, 0xC2#8], .staAby 0xC234#16), ([0x81#8, 0x9C#8], .staIzx 0x9C#8)] ++
    [([0x91#8, 0x9C#8], .staIzy 0x9C#8), ([0x86#8, 0x9C#8], .stxZp 0x9C#8), ([0x96#8, 0x9C#8], .stxZpy 0x9C#8),
     ([0x8E#8, 0x34#8, 0xC2#8], .stxAbs 0xC234#16), ([0x84#8, 0x9C#8], .styZp 0x9C#8), ([0x94#8, 0x9C#8], .styZpx 0x9C#8),
     ([0x8C#8, 0x34#8, 0xC2#8], .styAbs 0xC234#16), ([0xAA#8], .tax), ([0x8A#8], .txa),
     ([0xA8#8], .tay), ([0x98#8], .tya), ([0xBA#8], .tsx)] ++
    [([0x9A#8], .txs)]

theorem test_decode_loadStore : allDecode loadStoreWords = true := by decide

/-- The words of the Branch family. -/
def branchWords : List (List Byte × Instr) :=
    [([0x10#8, 0x9C#8], .bpl 0x9C#8), ([0x30#8, 0x9C#8], .bmi 0x9C#8), ([0x50#8, 0x9C#8], .bvc 0x9C#8),
     ([0x70#8, 0x9C#8], .bvs 0x9C#8), ([0x90#8, 0x9C#8], .bcc 0x9C#8), ([0xB0#8, 0x9C#8], .bcs 0x9C#8),
     ([0xD0#8, 0x9C#8], .bne 0x9C#8), ([0xF0#8, 0x9C#8], .beq 0x9C#8)]

theorem test_decode_branch : allDecode branchWords = true := by decide

/-- The words of the Stack family. -/
def stackWords : List (List Byte × Instr) :=
    [([0x48#8], .pha), ([0x68#8], .pla), ([0x08#8], .php),
     ([0x28#8], .plp)]

theorem test_decode_stack : allDecode stackWords = true := by decide

/-- The words of the Control family. -/
def controlWords : List (List Byte × Instr) :=
    [([0x4C#8, 0x34#8, 0xC2#8], .jmpAbs 0xC234#16), ([0x6C#8, 0x34#8, 0xC2#8], .jmpInd 0xC234#16), ([0x20#8, 0x34#8, 0xC2#8], .jsr 0xC234#16),
     ([0x60#8], .rts), ([0x40#8], .rti)]

theorem test_decode_control : allDecode controlWords = true := by decide

/-- The words of the FlagOps family. -/
def flagOpsWords : List (List Byte × Instr) :=
    [([0x18#8], .clc), ([0x38#8], .sec), ([0x58#8], .cli),
     ([0x78#8], .sei), ([0xB8#8], .clv), ([0xD8#8], .cld),
     ([0xF8#8], .sed), ([0xEA#8], .nop), ([0x00#8], .brk)]

theorem test_decode_flagOps : allDecode flagOpsWords = true := by decide

/-! ### Bytes that do not decode -/

theorem test_decode_illegal : decode true [0x02#8, 0x00#8] = .error (.illegalOpcode 0x02#8) := by rfl

theorem test_decode_truncated : decode true [0xAD#8, 0x00#8] = .error .truncated := by rfl

/-! ### Single steps -/

/-- 95_test_vectors.md 2.3. -/
theorem test_ora :
    (stepped (prog 0x4020#16 [0x09#8, 0x80#8] { State.reset with a := 0x01#8, flags := { State.reset.flags with c := true, v := true } })).map (fun t => (t.a, t.flags.z, t.flags.n, t.flags.v, t.flags.c, t.pc))
      = some (0x81#8, false, true, true, true, 0x4022#16) := by decide

/-- 95_test_vectors.md 2.3. -/
theorem test_and :
    (stepped (prog 0x4020#16 [0x29#8, 0x0F#8] { State.reset with a := 0xF0#8 })).map (fun t => (t.a, t.flags.z, t.flags.n))
      = some (0x00#8, true, false) := by decide

/-- 95_test_vectors.md 2.3, the operand in mode ZPX with the wrap of S5. -/
theorem test_eor :
    (stepped (prog 0x4020#16 [0x55#8, 0xFF#8] (hold [(0x0000#16, 0xC0#8)] { State.reset with a := 0xFF#8, x := 0x01#8 }))).map (fun t => (t.a, t.flags.z, t.flags.n))
      = some (0x3F#8, false, false) := by decide

/-- 95_test_vectors.md 2.3: N and V from the operand, Z from the AND. -/
theorem test_bit :
    (stepped (prog 0x4020#16 [0x24#8, 0x10#8] (hold [(0x0010#16, 0xC0#8)] { State.reset with a := 0x01#8 }))).map (fun t => (t.a, t.flags.z, t.flags.n, t.flags.v))
      = some (0x01#8, true, true, true) := by decide

/-- 95_test_vectors.md S7, the document's own example. -/
theorem test_adc_example :
    (stepped (prog 0x4020#16 [0x69#8, 0x01#8] { State.reset with a := 0x7F#8 })).map (fun t => (t.a, t.flags.c, t.flags.v, t.flags.n, t.flags.z))
      = some (0x80#8, false, true, true, false) := by decide

/-- 95_test_vectors.md 2.4: V where the exact overflow would be false. -/
theorem test_adc_sign_change :
    (stepped (prog 0x4020#16 [0x69#8, 0x00#8] { State.reset with a := 0xFF#8, flags := { State.reset.flags with c := true, d := true } })).map (fun t => (t.a, t.flags.c, t.flags.v, t.flags.z, t.flags.n))
      = some (0x00#8, true, true, true, false) := by decide

/-- 95_test_vectors.md 2.4. -/
theorem test_cmp :
    (stepped (prog 0x4020#16 [0xC9#8, 0x01#8] { State.reset with a := 0x00#8, flags := { State.reset.flags with v := true } })).map (fun t => (t.a, t.flags.c, t.flags.z, t.flags.n, t.flags.v))
      = some (0x00#8, false, false, true, true) := by decide

/-- 95_test_vectors.md 2.4. -/
theorem test_cpx :
    (stepped (prog 0x4020#16 [0xE0#8, 0x5A#8] { State.reset with x := 0x5A#8 })).map (fun t => (t.x, t.flags.c, t.flags.z, t.flags.n))
      = some (0x5A#8, true, true, false) := by decide

/-- 95_test_vectors.md 2.4. -/
theorem test_cpy :
    (stepped (prog 0x4020#16 [0xC0#8, 0x7F#8] { State.reset with y := 0x80#8 })).map (fun t => (t.flags.c, t.flags.z, t.flags.n))
      = some (true, false, false) := by decide

/-- 95_test_vectors.md 2.13. -/
theorem test_sbc :
    (stepped (prog 0x4020#16 [0xE9#8, 0x01#8] (gateOpen { State.reset with a := 0x80#8, flags := { State.reset.flags with c := true } }))).map (fun t => (t.a, t.flags.c, t.flags.v, t.flags.z, t.flags.n))
      = some (0x7F#8, true, true, false, false) := by decide

/-- 95_test_vectors.md 2.13. -/
theorem test_sbc_borrow :
    (stepped (prog 0x4020#16 [0xE5#8, 0x10#8] (hold [(0x0010#16, 0x05#8)] (gateOpen { State.reset with a := 0x05#8 })))).map (fun t => (t.a, t.flags.c, t.flags.v, t.flags.z, t.flags.n))
      = some (0xFF#8, false, true, false, true) := by decide

/-- 95_test_vectors.md S8, the document's own example. -/
theorem test_asl_memory :
    (stepped (prog 0x4020#16 [0x06#8, 0x10#8] (hold [(0x0010#16, 0x80#8)] State.reset))).map (fun t => (byteAt 0x0010#16 t, t.flags.c, t.flags.z, t.flags.n))
      = some (some 0x00#8, true, true, false) := by decide

/-- 95_test_vectors.md 2.5. -/
theorem test_lsr :
    (stepped (prog 0x4020#16 [0x4A#8] { State.reset with a := 0x81#8, flags := { State.reset.flags with c := true } })).map (fun t => (t.a, t.flags.c, t.flags.z, t.flags.n))
      = some (0x40#8, true, false, false) := by decide

/-- 95_test_vectors.md 2.5. -/
theorem test_rol :
    (stepped (prog 0x4020#16 [0x2A#8] { State.reset with a := 0x80#8, flags := { State.reset.flags with c := true } })).map (fun t => (t.a, t.flags.c, t.flags.z, t.flags.n))
      = some (0x01#8, true, false, false) := by decide

/-- 95_test_vectors.md 2.5. -/
theorem test_ror :
    (stepped (prog 0x4020#16 [0x6E#8, 0x00#8, 0x02#8] (hold [(0x0200#16, 0x01#8)] { State.reset with flags := { State.reset.flags with c := true } }))).map (fun t => (byteAt 0x0200#16 t, t.flags.c, t.flags.z, t.flags.n))
      = some (some 0x80#8, true, false, true) := by decide

/-- 95_test_vectors.md 2.6: the operand of ZPX wraps in the zero page. -/
theorem test_inc_wraps :
    (stepped (prog 0x4020#16 [0xF6#8, 0xFF#8] (hold [(0x0001#16, 0x0F#8)] { State.reset with x := 0x02#8, flags := { State.reset.flags with c := true } }))).map (fun t => (byteAt 0x0001#16 t, byteAt 0x0101#16 t, t.flags.z, t.flags.n, t.flags.c))
      = some (some 0x10#8, some 0x00#8, false, false, true) := by decide

/-- 95_test_vectors.md 2.6. -/
theorem test_dec :
    (stepped (prog 0x4020#16 [0xCE#8, 0x00#8, 0x02#8] State.reset)).map (fun t => (byteAt 0x0200#16 t, t.flags.z, t.flags.n))
      = some (some 0xFF#8, false, true) := by decide

/-- 95_test_vectors.md 2.6. -/
theorem test_inx :
    (stepped (prog 0x4020#16 [0xE8#8] { State.reset with x := 0xFF#8 })).map (fun t => (t.x, t.flags.z, t.flags.n))
      = some (0x00#8, true, false) := by decide

/-- 95_test_vectors.md 2.6. -/
theorem test_dex :
    (stepped (prog 0x4020#16 [0xCA#8] { State.reset with x := 0x00#8 })).map (fun t => (t.x, t.flags.z, t.flags.n))
      = some (0xFF#8, false, true) := by decide

/-- 95_test_vectors.md 2.6. -/
theorem test_iny :
    (stepped (prog 0x4020#16 [0xC8#8] { State.reset with y := 0xFF#8 })).map (fun t => (t.y, t.flags.z, t.flags.n))
      = some (0x00#8, true, false) := by decide

/-- 95_test_vectors.md 2.6. -/
theorem test_dey :
    (stepped (prog 0x4020#16 [0x88#8] { State.reset with y := 0x80#8 })).map (fun t => (t.y, t.flags.z, t.flags.n))
      = some (0x7F#8, false, false) := by decide

/-- 95_test_vectors.md 2.7. -/
theorem test_lda_mirror :
    (stepped (prog 0x4020#16 [0xAD#8, 0x44#8, 0x0A#8] (hold [(0x0244#16, 0x5A#8)] State.reset))).map (fun t => (t.a, t.flags.z, t.flags.n, t.pc))
      = some (0x5A#8, false, false, 0x4023#16) := by decide

/-- 95_test_vectors.md 2.2: the pointer's high byte from 0x0000, not 0x0100. -/
theorem test_lda_izy_wrap :
    (stepped (prog 0x4020#16 [0xB1#8, 0xFF#8] (hold [(0x0000#16, 0x03#8), (0x0100#16, 0x77#8), (0x0300#16, 0x66#8)] State.reset))).map (fun t => t.a)
      = some 0x66#8 := by decide

/-- 95_test_vectors.md 2.7. -/
theorem test_ldx :
    (stepped (prog 0x4020#16 [0xB6#8, 0xF0#8] (hold [(0x0010#16, 0xFF#8)] { State.reset with y := 0x20#8 }))).map (fun t => (t.x, t.flags.z, t.flags.n))
      = some (0xFF#8, false, true) := by decide

/-- 95_test_vectors.md 2.7. -/
theorem test_ldy :
    (stepped (prog 0x4020#16 [0xBC#8, 0xF0#8, 0x02#8] { State.reset with x := 0x20#8, y := 0x01#8 })).map (fun t => (t.y, t.flags.z, t.flags.n))
      = some (0x00#8, true, false) := by decide

/-- 95_test_vectors.md 2.2: the index wraps to 0x01. -/
theorem test_sta_izx :
    (stepped (prog 0x4020#16 [0x81#8, 0xFF#8] (hold [(0x0001#16, 0xCD#8), (0x0002#16, 0xAB#8)] { State.reset with x := 0x02#8, a := 0x34#8, flags := { State.reset.flags with n := true } }))).map (fun t => (byteAt 0xABCD#16 t, t.a, t.flags.n, t.flags.z))
      = some (some 0x34#8, 0x34#8, true, false) := by decide

/-- 95_test_vectors.md 2.12: the base lies in a slot, the address 0x4020 is cartridge. -/
theorem test_sta_past_the_region :
    (stepped (prog 0x4020#16 [0x9D#8, 0x10#8, 0x40#8] { State.reset with x := 0x10#8, a := 0x07#8 })).map (fun t => byteAt 0x4020#16 t)
      = some (some 0x07#8) := by decide

/-- 95_test_vectors.md 2.7. -/
theorem test_stx :
    (stepped (prog 0x4020#16 [0x86#8, 0x10#8] { State.reset with x := 0x7F#8 })).map (fun t => (byteAt 0x0010#16 t, t.flags.z, t.flags.n))
      = some (some 0x7F#8, false, false) := by decide

/-- 95_test_vectors.md 2.7: slot 1 through an alias. -/
theorem test_sty_slot :
    (stepped (prog 0x4020#16 [0x8C#8, 0x01#8, 0x20#8] { State.reset with y := 0x1E#8 })).map (fun t => byteAt 0x3FF9#16 t)
      = some (some 0x1E#8) := by decide

/-- 95_test_vectors.md 2.7. -/
theorem test_tax :
    (stepped (prog 0x4020#16 [0xAA#8] { State.reset with a := 0x80#8 })).map (fun t => (t.x, t.a, t.flags.z, t.flags.n))
      = some (0x80#8, 0x80#8, false, true) := by decide

/-- 95_test_vectors.md 2.7. -/
theorem test_txa :
    (stepped (prog 0x4020#16 [0x8A#8] { State.reset with a := 0x33#8 })).map (fun t => (t.a, t.x, t.flags.z, t.flags.n))
      = some (0x00#8, 0x00#8, true, false) := by decide

/-- 95_test_vectors.md 2.7. -/
theorem test_tay :
    (stepped (prog 0x4020#16 [0xA8#8] { State.reset with a := 0x31#8 })).map (fun t => (t.y, t.flags.z, t.flags.n))
      = some (0x31#8, false, false) := by decide

/-- 95_test_vectors.md 2.7. -/
theorem test_tya :
    (stepped (prog 0x4020#16 [0x98#8] { State.reset with y := 0xFF#8 })).map (fun t => (t.a, t.flags.z, t.flags.n))
      = some (0xFF#8, false, true) := by decide

/-- 95_test_vectors.md 2.13. -/
theorem test_tsx :
    (stepped (prog 0x4020#16 [0xBA#8] (gateOpen { State.reset with sp := 0xFD#8 }))).map (fun t => (t.x, t.flags.z, t.flags.n))
      = some (0xFD#8, false, true) := by decide

/-- 95_test_vectors.md 2.13: no flag changes. -/
theorem test_txs :
    (stepped (prog 0x4020#16 [0x9A#8] (gateOpen { State.reset with x := 0x00#8, flags := { State.reset.flags with n := true } }))).map (fun t => (t.sp, t.flags.z, t.flags.n))
      = some (0x00#8, false, true) := by decide

/-- 95_test_vectors.md 2.8. -/
theorem test_bpl_taken :
    (stepped (prog 0x4100#16 [0x10#8, 0x10#8] { State.reset with flags := { State.reset.flags with n := false } })).map (fun t => t.pc)
      = some 0x4112#16 := by decide

/-- 95_test_vectors.md 2.8. -/
theorem test_bpl_not_taken :
    (stepped (prog 0x4100#16 [0x10#8, 0x10#8] { State.reset with flags := { State.reset.flags with n := true } })).map (fun t => t.pc)
      = some 0x4102#16 := by decide

/-- 95_test_vectors.md 2.8. -/
theorem test_bmi_taken :
    (stepped (prog 0x4100#16 [0x30#8, 0x10#8] { State.reset with flags := { State.reset.flags with n := true } })).map (fun t => t.pc)
      = some 0x4112#16 := by decide

/-- 95_test_vectors.md 2.8. -/
theorem test_bmi_not_taken :
    (stepped (prog 0x4100#16 [0x30#8, 0x10#8] { State.reset with flags := { State.reset.flags with n := false } })).map (fun t => t.pc)
      = some 0x4102#16 := by decide

/-- 95_test_vectors.md 2.8. -/
theorem test_bvc_taken :
    (stepped (prog 0x4100#16 [0x50#8, 0x10#8] { State.reset with flags := { State.reset.flags with v := false } })).map (fun t => t.pc)
      = some 0x4112#16 := by decide

/-- 95_test_vectors.md 2.8. -/
theorem test_bvc_not_taken :
    (stepped (prog 0x4100#16 [0x50#8, 0x10#8] { State.reset with flags := { State.reset.flags with v := true } })).map (fun t => t.pc)
      = some 0x4102#16 := by decide

/-- 95_test_vectors.md 2.8. -/
theorem test_bvs_taken :
    (stepped (prog 0x4100#16 [0x70#8, 0x10#8] { State.reset with flags := { State.reset.flags with v := true } })).map (fun t => t.pc)
      = some 0x4112#16 := by decide

/-- 95_test_vectors.md 2.8. -/
theorem test_bvs_not_taken :
    (stepped (prog 0x4100#16 [0x70#8, 0x10#8] { State.reset with flags := { State.reset.flags with v := false } })).map (fun t => t.pc)
      = some 0x4102#16 := by decide

/-- 95_test_vectors.md 2.8. -/
theorem test_bcc_taken :
    (stepped (prog 0x4100#16 [0x90#8, 0x10#8] { State.reset with flags := { State.reset.flags with c := false } })).map (fun t => t.pc)
      = some 0x4112#16 := by decide

/-- 95_test_vectors.md 2.8. -/
theorem test_bcc_not_taken :
    (stepped (prog 0x4100#16 [0x90#8, 0x10#8] { State.reset with flags := { State.reset.flags with c := true } })).map (fun t => t.pc)
      = some 0x4102#16 := by decide

/-- 95_test_vectors.md 2.8. -/
theorem test_bcs_taken :
    (stepped (prog 0x4100#16 [0xB0#8, 0x10#8] { State.reset with flags := { State.reset.flags with c := true } })).map (fun t => t.pc)
      = some 0x4112#16 := by decide

/-- 95_test_vectors.md 2.8. -/
theorem test_bcs_not_taken :
    (stepped (prog 0x4100#16 [0xB0#8, 0x10#8] { State.reset with flags := { State.reset.flags with c := false } })).map (fun t => t.pc)
      = some 0x4102#16 := by decide

/-- 95_test_vectors.md 2.2. -/
theorem test_branch_backward_wraps :
    (stepped (prog 0x0000#16 [0x10#8, 0x80#8] State.reset)).map (fun t => t.pc)
      = some 0xFF82#16 := by decide

/-- 95_test_vectors.md 2.13. -/
theorem test_bne :
    (stepped (prog 0x4010#16 [0xD0#8, 0xFB#8] (gateOpen State.reset))).map (fun t => t.pc)
      = some 0x400D#16 := by decide

/-- 95_test_vectors.md 2.13. -/
theorem test_beq :
    (stepped (prog 0x4010#16 [0xF0#8, 0x04#8] (gateOpen { State.reset with flags := { State.reset.flags with z := true } }))).map (fun t => t.pc)
      = some 0x4016#16 := by decide

/-- 95_test_vectors.md 2.9. -/
theorem test_pha_wraps :
    (stepped (prog 0x4020#16 [0x48#8] { State.reset with a := 0x77#8, sp := 0x00#8 })).map (fun t => (byteAt 0x0100#16 t, t.sp))
      = some (some 0x77#8, 0xFF#8) := by decide

/-- 95_test_vectors.md 2.9. -/
theorem test_pla_wraps :
    (stepped (prog 0x4020#16 [0x68#8] { State.reset with a := 0x01#8, sp := 0xFF#8 })).map (fun t => (t.a, t.sp, t.flags.z, t.flags.n))
      = some (0x00#8, 0x00#8, true, false) := by decide

/-- 95_test_vectors.md 2.9; the Break flag is no input (conflict C1). -/
theorem test_php :
    (stepped (prog 0x4020#16 [0x08#8] { State.reset with flags := { State.reset.flags with c := true, b := true } })).map (fun t => (byteAt 0x01FF#16 t, t.sp, t.flags.b))
      = some (some 0x31#8, 0xFE#8, true) := by decide

/-- 95_test_vectors.md 2.9. -/
theorem test_php_all :
    (stepped (prog 0x4020#16 [0x08#8] { State.reset with sp := 0x80#8, flags := { State.reset.flags with n := true, v := true, d := true, i := true, z := true, c := true } })).map (fun t => (byteAt 0x0180#16 t, t.sp))
      = some (some 0xFF#8, 0x7F#8) := by decide

/-- 95_test_vectors.md 2.9. -/
theorem test_plp :
    (stepped (prog 0x4020#16 [0x28#8] (hold [(0x01FD#16, 0xC3#8)] { State.reset with sp := 0xFC#8, flags := { State.reset.flags with d := true } }))).map (fun t => (t.flags.n, t.flags.v, t.flags.d, t.flags.z, t.flags.c, t.sp))
      = some (true, true, false, true, true, 0xFD#8) := by decide

/-- 95_test_vectors.md 2.10. -/
theorem test_jmp :
    (stepped (prog 0x4020#16 [0x4C#8, 0x30#8, 0x40#8] State.reset)).map (fun t => t.pc)
      = some 0x4030#16 := by decide

/-- 95_test_vectors.md 2.10. -/
theorem test_jmp_indirect_no_page_wrap :
    (stepped (prog 0x4020#16 [0x6C#8, 0xFF#8, 0x02#8] (hold [(0x02FF#16, 0x34#8), (0x0300#16, 0x12#8), (0x0200#16, 0x99#8)] State.reset))).map (fun t => t.pc)
      = some 0x1234#16 := by decide

/-- 95_test_vectors.md 2.10. -/
theorem test_jsr_wraps :
    (stepped (prog 0x4022#16 [0x20#8, 0x00#8, 0x50#8] { State.reset with sp := 0x00#8 })).map (fun t => (byteAt 0x0100#16 t, byteAt 0x01FF#16 t, t.sp, t.pc))
      = some (some 0x40#8, some 0x24#8, 0xFE#8, 0x5000#16) := by decide

/-- 95_test_vectors.md 2.10. -/
theorem test_rts :
    (stepped (prog 0x4020#16 [0x60#8] (hold [(0x01FE#16, 0x24#8), (0x01FF#16, 0x40#8)] { State.reset with sp := 0xFD#8 }))).map (fun t => (t.pc, t.sp))
      = some (0x4025#16, 0xFF#8) := by decide

/-- 95_test_vectors.md 2.10. -/
theorem test_rti :
    (stepped (prog 0x4020#16 [0x40#8] (hold [(0x01FE#16, 0xC0#8), (0x01FF#16, 0x00#8), (0x0100#16, 0x50#8)] { State.reset with sp := 0xFD#8 }))).map (fun t => (t.flags.n, t.flags.v, t.flags.c, t.flags.z, t.pc, t.sp))
      = some (true, true, false, false, 0x5001#16, 0x00#8) := by decide

/-- 95_test_vectors.md 2.11. -/
theorem test_clc :
    (stepped (prog 0x4020#16 [0x18#8] { State.reset with flags := { State.reset.flags with c := true } })).map (fun t => (t.flags.c, t.pc))
      = some (false, 0x4021#16) := by decide

/-- 95_test_vectors.md 2.11. -/
theorem test_sec :
    (stepped (prog 0x4020#16 [0x38#8] { State.reset with flags := { State.reset.flags with c := false } })).map (fun t => (t.flags.c, t.pc))
      = some (true, 0x4021#16) := by decide

/-- 95_test_vectors.md 2.11. -/
theorem test_cli :
    (stepped (prog 0x4020#16 [0x58#8] { State.reset with flags := { State.reset.flags with i := true } })).map (fun t => (t.flags.i, t.pc))
      = some (false, 0x4021#16) := by decide

/-- 95_test_vectors.md 2.11. -/
theorem test_sei :
    (stepped (prog 0x4020#16 [0x78#8] { State.reset with flags := { State.reset.flags with i := false } })).map (fun t => (t.flags.i, t.pc))
      = some (true, 0x4021#16) := by decide

/-- 95_test_vectors.md 2.11. -/
theorem test_clv :
    (stepped (prog 0x4020#16 [0xB8#8] { State.reset with flags := { State.reset.flags with v := true } })).map (fun t => (t.flags.v, t.pc))
      = some (false, 0x4021#16) := by decide

/-- 49_ext_official.md R226. -/
theorem test_cld :
    (stepped (prog 0x4020#16 [0xD8#8] (gateOpen { State.reset with flags := { State.reset.flags with d := true } }))).map (fun t => t.flags.d)
      = some false := by decide

/-- 49_ext_official.md R227. -/
theorem test_sed :
    (stepped (prog 0x4020#16 [0xF8#8] (gateOpen State.reset))).map (fun t => t.flags.d)
      = some true := by decide

/-- 95_test_vectors.md P6 (d). -/
theorem test_nop :
    (stepped (prog 0x4020#16 [0xEA#8] (gateOpen State.reset))).map (fun t => (t.pc, t.sp))
      = some (0x4021#16, 0xFF#8) := by decide

/-- 95_test_vectors.md 2.12: the operand byte of 0xFFFF stands at 0x0000. -/
theorem test_fetch_wraps :
    (stepped (prog 0xFFFF#16 [0xA5#8] (hold [(0x0000#16, 0x07#8), (0x0007#16, 0x99#8)] State.reset))).map (fun t => (t.a, t.pc))
      = some (0x99#8, 0x0001#16) := by decide

/-- 95_test_vectors.md 2.11. -/
theorem test_brk :
    stopped (prog 0x4020#16 [0x00#8] State.reset) = some (.notImplemented) := by decide

/-- 95_test_vectors.md P6 (d): the gate of the extension set is closed. -/
theorem test_nop_closed :
    stopped (prog 0x4020#16 [0xEA#8] State.reset) = some (.illegalOpcode 0xEA#8) := by decide

/-- 95_test_vectors.md 2.12. -/
theorem test_illegal_before_operand_fetch :
    stopped (prog 0x4017#16 [0x02#8] State.reset) = some (.illegalOpcode 0x02#8) := by decide

/-- 95_test_vectors.md 2.12. -/
theorem test_operand_fetch_forbidden :
    stopped (prog 0x4017#16 [0xA9#8] State.reset) = some (.restrictedRegion 0x4018#16) := by decide

/-- 95_test_vectors.md 2.12. -/
theorem test_store_forbidden :
    stopped (prog 0x4020#16 [0x9D#8, 0x10#8, 0x40#8] { State.reset with x := 0x08#8 }) = some (.restrictedRegion 0x4018#16) := by decide

/-- 95_test_vectors.md 2.10. -/
theorem test_jmp_pointer_forbidden :
    stopped (prog 0x4020#16 [0x6C#8, 0x17#8, 0x40#8] State.reset) = some (.restrictedRegion 0x4018#16) := by decide

/-- 95_test_vectors.md 2.5. -/
theorem test_shift_forbidden :
    stopped (prog 0x4020#16 [0x0E#8, 0x18#8, 0x40#8] State.reset) = some (.restrictedRegion 0x4018#16) := by decide

/-! ### States that meet the hypotheses of the statements, one theorem for each statement that has hypotheses

Each theorem bears the name of its statement; a statement with several clauses has one part for each, at a boundary value
where the clause has a range. -/

/-- One byte in memory, two bytes, three bytes. -/
theorem bytesAt_one {p : Addr} {b : Byte} {s : State} (h : memRead p s = .next b) : BytesAt p [b] s := by
  intro k v hv
  match k with
  | 0 => simp at hv; subst hv; simpa using h
  | k + 1 => simp at hv

theorem bytesAt_cons {p : Addr} {b : Byte} {bs : List Byte} {s : State} (h : memRead p s = .next b)
    (t : BytesAt (p + 1) bs s) : BytesAt p (b :: bs) s := by
  intro k v hv
  match k with
  | 0 => simp at hv; subst hv; simpa using h
  | k + 1 =>
    have := t k v (by simpa using hv)
    rw [BitVec.ofNat_add, ← BitVec.add_comm (BitVec.ofNat 16 1), ← BitVec.add_assoc]
    exact this

theorem memRead_of {p : Addr} {s : State} {v : Byte} (h : byteAt p s = some v) : memRead p s = .next v := by
  unfold byteAt at h
  split at h
  · rename_i e; rw [e]; exact congrArg _ (Option.some.inj h)
  · cases h
  · cases h

theorem steps_of {s : State} (h : (stepped s).isSome = true) : ∃ t, step s = .next t := by
  unfold stepped at h
  split at h
  · exact ⟨_, ‹_›⟩
  · cases h
  · cases h

theorem step_of {s : State} {f : Fault} (h : stopped s = some f) : step s = .fault f := by
  unfold stopped at h
  split at h
  · cases h
  · rename_i e; rw [e]; exact congrArg _ (Option.some.inj h)
  · cases h

/-- The reset state with `A` = 0x81, `X` = 0x02, `Y` = 0x03 and a few bytes in memory. -/
def sample : State :=
  hold [(0x0010#16, 0x5A#8), (0x0012#16, 0x00#8), (0x0200#16, 0xC0#8)] { State.reset with a := 0x81#8, x := 0x02#8, y := 0x03#8 }

theorem sample_inv : Inv sample := rfl

theorem witness_DecodeOfEncodeIsTheInstruction :
    (Instr.adcAbx 0x0200#16).wellFormed false = true ∧ (Instr.sbcIzy 0x40#8).wellFormed true = true := by decide

theorem witness_DecodedBytesAreTheEncoding :
    decode false [0x7D#8, 0x00#8, 0x02#8, 0xCA#8] = .ok (.adcAbx 0x0200#16, [0xCA#8]) := by rfl

/-- An illegal byte, an extension byte behind the closed gate, and a byte that is neither. -/
theorem witness_IllegalOpcodesStopTheStep :
    (memRead 0x4020#16 (prog 0x4020#16 [0xFF#8] sample) = .next 0xFF#8 ∧ (0xFF#8).toNat ∈ illegalOpcodes ∧
      step (prog 0x4020#16 [0xFF#8] sample) = .fault (.illegalOpcode 0xFF#8)) ∧
    (memRead 0x4020#16 (prog 0x4020#16 [0xFD#8] sample) = .next 0xFD#8 ∧ 0xFD#8 ∈ extensionOpcodes ∧
      step (prog 0x4020#16 [0xFD#8] sample) = .fault (.illegalOpcode 0xFD#8)) ∧
    (memRead 0x4020#16 (prog 0x4020#16 [0xE8#8] sample) = .next 0xE8#8 ∧
      (0xE8#8).toNat ∉ illegalOpcodes ∧ 0xE8#8 ∉ extensionOpcodes) := by
  refine ⟨⟨memRead_of (by decide), by decide, step_of (by decide)⟩, ⟨memRead_of (by decide), by decide, step_of (by decide)⟩, memRead_of (by decide), by decide, by decide⟩

theorem witness_StepRunsTheDecodedInstruction :
    (prog 0xFFFE#16 [0x7D#8, 0x00#8, 0x02#8] sample).latch = none ∧
      BytesAt 0xFFFE#16 [0x7D#8, 0x00#8, 0x02#8] (prog 0xFFFE#16 [0x7D#8, 0x00#8, 0x02#8] sample) ∧
      decode false [0x7D#8, 0x00#8, 0x02#8] = .ok (.adcAbx 0x0200#16, []) :=
  ⟨rfl, bytesAt_cons (memRead_of (by decide)) (bytesAt_cons (memRead_of (by decide)) (bytesAt_one (memRead_of (by decide)))), rfl⟩

/-- Each clause: the opcode fetch, an illegal byte, the three lengths, and the operand fetches at both ends of the region. -/
theorem witness_FetchFaultsInTheOrderOfTheStep :
    forbidden 0x4018#16 = true ∧ forbidden 0x401F#16 = true ∧
      memRead 0x4017#16 (prog 0x4017#16 [0x02#8] sample) = .next 0x02#8 ∧
      memRead 0x4020#16 (prog 0x4020#16 [0xE8#8] sample) = .next 0xE8#8 ∧
      (memRead 0x4017#16 (prog 0x4017#16 [0xA9#8] sample) = .next 0xA9#8 ∧ forbidden (0x4017#16 + 1) = true) ∧
      (memRead 0x4017#16 (prog 0x4017#16 [0xAD#8] sample) = .next 0xAD#8 ∧ forbidden (0x4017#16 + 1) = true) ∧
      (memRead 0x4016#16 (prog 0x4016#16 [0xAD#8] sample) = .next 0xAD#8 ∧ forbidden (0x4016#16 + 1) = false ∧
        forbidden (0x4016#16 + 2) = true) ∧
      tableEntry false 0x02#8 = .illegal ∧ tableEntry false 0xE8#8 = .one .inx ∧ tableEntry false 0xA9#8 = .two .ldaImm ∧
      tableEntry false 0xAD#8 = .three .ldaAbs := by
  refine ⟨by decide, by decide, memRead_of (by decide), memRead_of (by decide), ⟨memRead_of (by decide), by decide⟩, ⟨memRead_of (by decide), by decide⟩,
    ⟨memRead_of (by decide), by decide, by decide⟩, rfl, rfl, rfl, rfl⟩

theorem witness_FaultsLatchAndHaltForGood :
    step (prog 0x4020#16 [0x00#8] sample) = .fault .notImplemented ∧
      (stepLatched (prog 0x4020#16 [0x00#8] sample)).latch = some .notImplemented :=
  ⟨step_of (by decide), by decide⟩

theorem witness_ExecutionFaultsAreBrkOrForbiddenAccesses :
    exec .brk sample = .fault .notImplemented ∧
      exec (.ldaAbs 0x4018#16) sample = .fault (.restrictedRegion 0x4018#16) ∧
      exec (.staAbx 0x401D#16) sample = .fault (.restrictedRegion 0x401F#16) ∧
      exec (.jmpInd 0x4017#16) sample = .fault (.restrictedRegion 0x4018#16) := ⟨rfl, rfl, rfl, rfl⟩

/-- One instruction of each clause. -/
theorem witness_FormsWithoutForbiddenAccessComplete :
    (Instr.staZpx 0xFF#8 ≠ .brk ∧ (Instr.staZpx 0xFF#8).operand.format ∈ [.imp, .acc, .imm, .rel, .zp, .zpx, .zpy]) ∧
      (∃ w, Instr.jsr 0x4018#16 = .jsr w) ∧ ∃ w, Instr.jmpAbs 0x4018#16 = .jmpAbs w :=
  ⟨⟨by decide, by decide⟩, ⟨_, rfl⟩, _, rfl⟩

theorem witness_StepKeepsTheStorageCanonical :
    Inv (prog 0x4020#16 [0x8D#8, 0x00#8, 0x02#8] sample) ∧
      ∃ t, step (prog 0x4020#16 [0x8D#8, 0x00#8, 0x02#8] sample) = .next t :=
  ⟨by unfold Inv; decide, steps_of (by decide)⟩

/-- The invariant holds at reset. -/
theorem reset_inv : Inv State.reset := rfl

theorem witness_PowerOnStorageIsCanonical : Memory.wf [(0x07FF, 0x01#8), (0x4020, 0xA9#8), (0xFFFF, 0xFF#8)] = true := by decide

theorem witness_EventsAndBootMovesKeepTheStorageCanonical :
    Inv sample ∧ ∃ t, bootMove (.write 0x1FFF#16 0x01#8) sample = .next t := ⟨sample_inv, _, rfl⟩

/-- An instruction of each side. -/
theorem witness_DecimalModeSteersNothing :
    (Instr.adcImm 0x01#8).mnemonic ∉ [.php, .plp, .rti, .cld, .sed] ∧ Instr.sed.mnemonic ∈ [.plp, .rti, .cld, .sed] := by decide

theorem witness_InterruptDisableSteersNothing :
    (Instr.bpl 0x01#8).mnemonic ∉ [.php, .plp, .rti, .cli, .sei] ∧ Instr.sei.mnemonic ∈ [.plp, .rti, .cli, .sei] := by decide

/-- Every premise: a next state that changes `A`, `X`, `Y`, `SP`. -/
theorem witness_RegistersChangeOnlyByTheirWriters :
    (∃ t, exec (.ldaImm 0x01#8) sample = .next t ∧ t.a ≠ sample.a) ∧ (∃ t, exec .rorAcc sample = .next t ∧ t.a ≠ sample.a) ∧
      (∃ t, exec .inx sample = .next t ∧ t.x ≠ sample.x) ∧ (∃ t, exec .dey sample = .next t ∧ t.y ≠ sample.y) ∧
      ∃ t, exec .php sample = .next t ∧ t.sp ≠ sample.sp :=
  ⟨⟨_, rfl, by decide⟩, ⟨_, rfl, by decide⟩, ⟨_, rfl, by decide⟩, ⟨_, rfl, by decide⟩, _, rfl, by decide⟩

/-- Every premise: a next state that changes each flag the matrix lets an instruction change. -/
theorem witness_FlagsChangeOnlyAsTheMatrixSays :
    (∃ t, exec .sec sample = .next t ∧ t.flags.c ≠ sample.flags.c) ∧
      (∃ t, exec (.ldaImm 0x00#8) sample = .next t ∧ t.flags.z ≠ sample.flags.z) ∧
      (∃ t, exec (.ldaImm 0x80#8) sample = .next t ∧ t.flags.n ≠ sample.flags.n) ∧
      (∃ t, exec .sei sample = .next t ∧ t.flags.i ≠ sample.flags.i) ∧
      (∃ t, exec .sed sample = .next t ∧ t.flags.d ≠ sample.flags.d) ∧
      ∃ t, exec (.bitAbs 0x0200#16) sample = .next t ∧ t.flags.v ≠ sample.flags.v ∧ t.flags.v = true :=
  ⟨⟨_, rfl, by decide⟩, ⟨_, rfl, by decide⟩, ⟨_, rfl, by decide⟩, ⟨_, rfl, by decide⟩, ⟨_, rfl, by decide⟩,
    _, rfl, by decide, by decide⟩

/-- A store, with an address apart from the one stored to; a form that stores nothing; the two slots of JSR. -/
theorem witness_MemoryChangesOnlyWhereTheInstructionStores :
    Inv sample ∧
      (∃ t, exec (.staAbx 0x01FE#16) sample = .next t ∧ storedAddrs (.staAbx 0x01FE#16) sample = [0x0200#16] ∧
        Apart 0x0201#16 0x0200#16) ∧
      (∃ t, exec (.cmpAbs 0x0200#16) sample = .next t ∧ storedAddrs (.cmpAbs 0x0200#16) sample = []) ∧
      ∃ t, exec (.jsr 0x5000#16) { sample with sp := 0x00#8 } = .next t ∧
        storedAddrs (.jsr 0x5000#16) { sample with sp := 0x00#8 } = [0x0100#16, 0x01FF#16] ∧
        Apart 0x0200#16 0x0100#16 ∧ Apart 0x0200#16 0x01FF#16 :=
  ⟨sample_inv, ⟨_, rfl, rfl, by unfold Apart; decide⟩, ⟨_, rfl, rfl⟩, _, rfl, rfl, by unfold Apart; decide, by unfold Apart; decide⟩

/-- A value of an operand in a form that has one, and the fault of one that has none: for every statement about reading
instructions, its mnemonics. -/
theorem witness_LogicalInstructionsCompute :
    (operandValue (Instr.oraZpx 0x10#8).operand sample = .next 0x00#8 ∧ (Instr.oraZpx 0x10#8).mnemonic = .ora) ∧
      (operandValue (Instr.andAbs 0x0200#16).operand sample = .next 0xC0#8 ∧ (Instr.andAbs 0x0200#16).mnemonic = .and) ∧
      (operandValue (Instr.eorImm 0xFF#8).operand sample = .next 0xFF#8 ∧ (Instr.eorImm 0xFF#8).mnemonic = .eor) ∧
      operandValue (Instr.eorAbs 0x401F#16).operand sample = .fault (.restrictedRegion 0x401F#16) ∧
      (Instr.eorAbs 0x401F#16).mnemonic ∈ [.ora, .and, .eor] := ⟨⟨rfl, rfl⟩, ⟨rfl, rfl⟩, ⟨rfl, rfl⟩, rfl, by decide⟩

theorem witness_BitTestTakesNegativeAndOverflowFromTheOperand :
    (Instr.bitAbs 0x0200#16).mnemonic = .bit ∧ operandValue (Instr.bitAbs 0x0200#16).operand sample = .next 0xC0#8 ∧
      operandValue (Instr.bitAbs 0x4018#16).operand sample = .fault (.restrictedRegion 0x4018#16) := ⟨rfl, rfl, rfl⟩

theorem witness_AddWithCarryAddsInBinary :
    (Instr.adcZp 0x10#8).mnemonic = .adc ∧ operandValue (Instr.adcZp 0x10#8).operand sample = .next 0x5A#8 ∧
      operandValue (Instr.adcAby 0x4015#16).operand sample = .fault (.restrictedRegion 0x4018#16) := ⟨rfl, rfl, rfl⟩

theorem witness_SubtractBorrowsWhenCarryIsClear :
    (Instr.sbcZp 0x10#8).mnemonic = .sbc ∧ operandValue (Instr.sbcZp 0x10#8).operand sample = .next 0x5A#8 ∧
      operandValue (Instr.sbcAby 0x4015#16).operand sample = .fault (.restrictedRegion 0x4018#16) := ⟨rfl, rfl, rfl⟩

theorem witness_ComparesSetFlagsOnly :
    ((Instr.cmpIzx 0x0E#8).mnemonic = .cmp ∧ operandValue (Instr.cmpIzx 0x0E#8).operand sample = .next 0x00#8) ∧
      ((Instr.cpxZp 0x10#8).mnemonic = .cpx ∧ operandValue (Instr.cpxZp 0x10#8).operand sample = .next 0x5A#8) ∧
      ((Instr.cpyImm 0x03#8).mnemonic = .cpy ∧ operandValue (Instr.cpyImm 0x03#8).operand sample = .next 0x03#8) ∧
      operandValue (Instr.cpyAbs 0x4018#16).operand sample = .fault (.restrictedRegion 0x4018#16) :=
  ⟨⟨rfl, rfl⟩, ⟨rfl, rfl⟩, ⟨rfl, rfl⟩, rfl⟩

theorem witness_AccumulatorShiftsCompute :
    Instr.aslAcc.operand = .acc ∧ Instr.lsrAcc.operand = .acc ∧ Instr.rolAcc.operand = .acc ∧ Instr.rorAcc.operand = .acc :=
  ⟨rfl, rfl, rfl, rfl⟩

/-- One form of each of the four. -/
theorem witness_MemoryShiftsCompute :
    cellOf 0x0200#16 = some 0x0200 ∧ sample.mem.read 0x0200 = 0xC0#8 ∧
      (resolve (Instr.aslAbs 0x0200#16).operand sample = .next (.addr 0x0200#16) ∧
        shiftSpec (Instr.aslAbs 0x0200#16).mnemonic 0xC0#8 false = some (0x80#8, true)) ∧
      (resolve (Instr.lsrAbx 0x01FE#16).operand sample = .next (.addr 0x0200#16) ∧
        shiftSpec (Instr.lsrAbx 0x01FE#16).mnemonic 0xC0#8 false = some (0x60#8, false)) ∧
      (resolve (Instr.rolAbs 0x0200#16).operand sample = .next (.addr 0x0200#16) ∧
        shiftSpec (Instr.rolAbs 0x0200#16).mnemonic 0xC0#8 false = some (0x80#8, true)) ∧
      resolve (Instr.rorAbs 0x0200#16).operand sample = .next (.addr 0x0200#16) ∧
        shiftSpec (Instr.rorAbs 0x0200#16).mnemonic 0xC0#8 false = some (0x60#8, false) :=
  ⟨rfl, rfl, ⟨rfl, rfl⟩, ⟨rfl, rfl⟩, ⟨rfl, rfl⟩, rfl, rfl⟩

theorem witness_MemoryIncrementsAndDecrementsCompute :
    (resolve (Instr.incZpx 0xFE#8).operand sample = .next (.addr 0x0000#16) ∧ cellOf 0x0000#16 = some 0 ∧
      (Instr.incZpx 0xFE#8).mnemonic = .inc) ∧
      resolve (Instr.decAbs 0xFFFF#16).operand sample = .next (.addr 0xFFFF#16) ∧ cellOf 0xFFFF#16 = some 0xFFFF ∧
      (Instr.decAbs 0xFFFF#16).mnemonic = .dec := ⟨⟨rfl, rfl, rfl⟩, rfl, rfl, rfl⟩

/-- The hypotheses of `RunsAs` for a one-byte instruction, its opcode placed at 0x4020. -/
def ReadyAtStart (i : Instr) (s : State) : Prop :=
  (prog 0x4020#16 [i.opcode] s).latch = none ∧
    i.wellFormed (prog 0x4020#16 [i.opcode] s).cfg.extOfficial = true ∧
    (prog 0x4020#16 [i.opcode] s).pc = 0x4020#16 ∧
    memRead 0x4020#16 (prog 0x4020#16 [i.opcode] s) = .next i.opcode

theorem readyAtStart_of {l : List Instr} {s : State}
    (h : ∀ i ∈ l, (prog 0x4020#16 [i.opcode] s).latch = none ∧
      i.wellFormed (prog 0x4020#16 [i.opcode] s).cfg.extOfficial = true ∧
      (prog 0x4020#16 [i.opcode] s).pc = 0x4020#16 ∧ byteAt 0x4020#16 (prog 0x4020#16 [i.opcode] s) = some i.opcode) :
    ∀ i ∈ l, ReadyAtStart i s := fun i hi =>
  have ⟨h1, h2, h3, h4⟩ := h i hi
  ⟨h1, h2, h3, memRead_of h4⟩

/-- Each instruction of the statement at `pc`, and an opcode fetch that faults. -/
theorem witness_RegisterIncrementsAndDecrements :
    (∀ i ∈ [.inx, .dex, .iny, .dey], ReadyAtStart i sample) ∧
      memRead 0x4018#16 (sample.withPC 0x4018#16) = .fault (.restrictedRegion 0x4018#16) :=
  ⟨readyAtStart_of (by decide), rfl⟩

theorem witness_LoadsCompute :
    (operandValue (Instr.ldaIzy 0x12#8).operand sample = .next 0x00#8 ∧ (Instr.ldaIzy 0x12#8).mnemonic = .lda) ∧
      (operandValue (Instr.ldxZpy 0x0D#8).operand sample = .next 0x5A#8 ∧ (Instr.ldxZpy 0x0D#8).mnemonic = .ldx) ∧
      (operandValue (Instr.ldyAbx 0x01FE#16).operand sample = .next 0xC0#8 ∧ (Instr.ldyAbx 0x01FE#16).mnemonic = .ldy) ∧
      operandValue (Instr.ldyAbs 0x4018#16).operand sample = .fault (.restrictedRegion 0x4018#16) ∧
      (Instr.ldyAbs 0x4018#16).mnemonic ∈ [.lda, .ldx, .ldy] := ⟨⟨rfl, rfl⟩, ⟨rfl, rfl⟩, ⟨rfl, rfl⟩, rfl, by decide⟩

theorem witness_StoresCompute :
    ((Instr.staIzy 0x10#8).mnemonic = .sta ∧ resolve (Instr.staIzy 0x10#8).operand sample = .next (.addr 0x005D#16) ∧
      cellOf 0x005D#16 = some 0x5D) ∧
      ((Instr.stxZpy 0xFF#8).mnemonic = .stx ∧ resolve (Instr.stxZpy 0xFF#8).operand sample = .next (.addr 0x0002#16) ∧
      cellOf 0x0002#16 = some 2) ∧
      (Instr.styAbs 0x3FFF#16).mnemonic = .sty ∧ resolve (Instr.styAbs 0x3FFF#16).operand sample = .next (.addr 0x3FFF#16) ∧
      cellOf 0x3FFF#16 = some 0x2007 := ⟨⟨rfl, rfl, rfl⟩, ⟨rfl, rfl, rfl⟩, rfl, rfl, rfl⟩

/-- Each instruction of the statement at `pc`, and an opcode fetch that faults. -/
theorem witness_TransfersCopyAndSetZeroNegative :
    (∀ i ∈ [.tax, .txa, .tay, .tya], ReadyAtStart i sample) ∧
      memRead 0x4018#16 (sample.withPC 0x4018#16) = .fault (.restrictedRegion 0x4018#16) :=
  ⟨readyAtStart_of (by decide), rfl⟩

/-- Each instruction of the statement at `pc`, and an opcode fetch that faults. -/
theorem witness_PushAndPullAccumulator :
    (∀ i ∈ [.pha, .pla], ReadyAtStart i sample) ∧
      memRead 0x4018#16 (sample.withPC 0x4018#16) = .fault (.restrictedRegion 0x4018#16) :=
  ⟨readyAtStart_of (by decide), rfl⟩

/-- Each instruction of the statement at `pc`, and an opcode fetch that faults. -/
theorem witness_PushAndPullStatus :
    (∀ i ∈ [.php, .plp], ReadyAtStart i sample) ∧
      memRead 0x4018#16 (sample.withPC 0x4018#16) = .fault (.restrictedRegion 0x4018#16) :=
  ⟨readyAtStart_of (by decide), rfl⟩

/-- The pointer readable, its low byte forbidden, its high byte alone forbidden. -/
theorem witness_JumpsCommitTheirTarget :
    (memRead 0x07FF#16 sample = .next 0x00#8 ∧ memRead (0x07FF#16 + 1) sample = .next 0x00#8) ∧ forbidden 0x401F#16 = true ∧
      forbidden 0x4017#16 = false ∧ forbidden (0x4017#16 + 1) = true := ⟨⟨memRead_of (by decide), memRead_of (by decide)⟩, by decide, by decide, by decide⟩

theorem witness_JsrThenRtsReturnsAfterTheCall :
    Inv sample ∧ Apart 0x0200#16 (stackAddr sample.cfg sample.sp) ∧ Apart 0x0200#16 (stackAddr sample.cfg (sample.sp - 1)) :=
  ⟨sample_inv, by unfold Apart; decide, by unfold Apart; decide⟩

/-- Each instruction of the statement at `pc`, and an opcode fetch that faults. -/
theorem witness_FlagInstructionsChangeOneFlag :
    (∀ i ∈ [.clc, .sec, .cli, .sei, .clv], ReadyAtStart i sample) ∧
      memRead 0x4018#16 (sample.withPC 0x4018#16) = .fault (.restrictedRegion 0x4018#16) :=
  ⟨readyAtStart_of (by decide), rfl⟩

/-- Each instruction of the statement at `pc`, and an opcode fetch that faults. -/
theorem witness_ExtensionOneByteInstructions :
    (∀ i ∈ [.tsx, .txs, .cld, .sed, .nop], ReadyAtStart i (gateOpen sample)) ∧
      memRead 0x4018#16 ((gateOpen sample).withPC 0x4018#16) = .fault (.restrictedRegion 0x4018#16) :=
  ⟨readyAtStart_of (by decide), rfl⟩

theorem witness_BrkAlwaysRaisesNotImplemented :
    State.reset.latch = none ∧ memRead State.reset.pc State.reset = .next 0x00#8 := ⟨rfl, rfl⟩

theorem witness_NotImplementedIsRaisedByByteZeroOnly : step State.reset = .fault .notImplemented := rfl

theorem witness_PushesPopBackInReverse : Inv sample ∧ (List.replicate 256 0x01#8).length ≤ 256 := ⟨sample_inv, Nat.le_of_eq (List.length_replicate ..)⟩

/-- Both ends of each mirrored range, and of the ranges without a mirror. -/
theorem witness_MirroredAddressesShareTheirByte :
    Inv sample ∧
      ((∃ t, memWrite 0x0000#16 0x07#8 sample = .next t) ∧ (0x1800#16).toNat % 0x0800 = (0x0000#16).toNat % 0x0800) ∧
      ((∃ t, memWrite 0x1FFF#16 0x07#8 sample = .next t) ∧ (0x07FF#16).toNat % 0x0800 = (0x1FFF#16).toNat % 0x0800) ∧
      ((∃ t, memWrite 0x2000#16 0x07#8 sample = .next t) ∧ (0x3FF8#16).toNat % 8 = (0x2000#16).toNat % 8) ∧
      ((∃ t, memWrite 0x3FFF#16 0x07#8 sample = .next t) ∧ (0x2007#16).toNat % 8 = (0x3FFF#16).toNat % 8) ∧
      forbidden 0x0000#16 = false ∧ forbidden 0x1FFF#16 = false ∧ forbidden 0x2000#16 = false ∧ forbidden 0x3FFF#16 = false ∧
      forbidden 0x4000#16 = false ∧ forbidden 0x4017#16 = false ∧ forbidden 0x4020#16 = false ∧ forbidden 0xFFFF#16 = false :=
  ⟨sample_inv, ⟨⟨_, rfl⟩, by decide⟩, ⟨⟨_, rfl⟩, by decide⟩, ⟨⟨_, rfl⟩, by decide⟩, ⟨⟨_, rfl⟩, by decide⟩,
    by decide⟩

/-- The region map at both ends of every region (95_test_vectors.md 2.1). -/
theorem witness_RouteFollowsTheRegionMap :
    route 0x0000#16 = .ram 0 ∧ route 0x1FFF#16 = .ram 0x7FF ∧ route 0x2000#16 = .preg 0 ∧ route 0x3FFF#16 = .preg 7 ∧
      route 0x4000#16 = .preg2 0 ∧ route 0x4017#16 = .preg2 23 ∧ route 0x4018#16 = .forbidden ∧ route 0x401F#16 = .forbidden ∧
      route 0x4020#16 = .cart 0 ∧ route 0xFFFF#16 = .cart 0xBFDF := by decide

/-- Each access kind, at an end of the region. -/
theorem witness_ForbiddenRegionFailsForEveryAccess :
    0x4018 ≤ (0x4018#16).toNat ∧ (0x401F#16).toNat ≤ 0x401F ∧
      ((sample.withPC 0x4018#16).latch = none ∧ (sample.withPC 0x4018#16).pc = 0x4018#16) ∧
      (memRead 0x4017#16 (prog 0x4017#16 [0xA9#8] sample) = .next 0xA9#8 ∧ 0x4017#16 + 1 = 0x4018#16 ∧
        tableEntry false 0xA9#8 = .two .ldaImm) ∧
      (memRead 0x4016#16 (prog 0x4016#16 [0xAD#8] sample) = .next 0xAD#8 ∧ tableEntry false 0xAD#8 = .three .ldaAbs ∧
        0x4016#16 + 2 = 0x4018#16 ∧ forbidden (0x4016#16 + 1) = false) ∧
      forbidden (0x4018#16 - 1) = false ∧
      (resolve (Instr.incAbx 0x401D#16).operand sample = .next (.addr 0x401F#16) ∧ (Instr.incAbx 0x401D#16).mnemonic ∉ [.jmp, .jsr]) ∧
      (openSystem sample).cfg.collaborators = true :=
  ⟨by decide, by decide, ⟨rfl, rfl⟩, ⟨memRead_of (by decide), rfl, rfl⟩, ⟨memRead_of (by decide), rfl, rfl, by decide⟩, by decide, ⟨rfl, by decide⟩, rfl⟩

theorem witness_WritesStoreOneByteAndReadsSeeIt :
    Inv sample ∧ (∃ t, memWrite 0x2000#16 0x00#8 sample = .next t) ∧ Apart 0x2001#16 0x2000#16 :=
  ⟨sample_inv, ⟨_, rfl⟩, by unfold Apart; decide⟩

/-- The greatest program that fits, one byte of it and of what it leaves alone, and the smallest that does not fit. -/
theorem witness_ProgramLoadFillsTheCartridge :
    Inv sample ∧ (List.replicate 0xBFE0 0x01#8).length ≤ 0xBFE0 ∧ [0xA9#8, 0x01#8][1]? = some 0x01#8 ∧
      (0x401F#16).toNat < 0x4020 ∧ 0x4020 + [0xA9#8, 0x01#8].length ≤ (0x4022#16).toNat ∧
      0xBFE0 < (List.replicate 0xBFE1 0x01#8).length :=
  ⟨sample_inv, Nat.le_of_eq (List.length_replicate ..), rfl, by decide, by decide, by rw [List.length_replicate]; decide⟩

theorem witness_IndexedModesWrapWhereTheSpecSays :
    (Instr.ldxZpy 0xFF#8).operand.format = .zpy ∧ (Instr.stxZpy 0xFF#8).operand.format = .zpy := ⟨rfl, rfl⟩

theorem witness_OperandValueIsTheByteItDesignates :
    (resolve (.aby 0xFFFD#16) sample = .next (.addr 0x0000#16) ∧ cellOf 0x0000#16 = some 0) ∧
      resolve (.aby 0x401C#16) sample = .next (.addr 0x401F#16) ∧ forbidden 0x401F#16 = true := ⟨⟨rfl, rfl⟩, rfl, by decide⟩

/-- A documented word and an extension word, the one placed at `pc`, the other at the cartridge base. -/
theorem witness_PlacedInstructionRunsNext :
    Inv sample ∧ decodeTableWord 24 0x02007D = some (.adcAbx 0x0200#16) ∧ decodeTableWord 8 0xEA = some .nop ∧
      (State.withFetchWord (sample.withPC 0x4016#16) 8 0xEA).pc = 0x4020#16 := ⟨sample_inv, rfl, rfl, rfl⟩

/-- Both parameters; both ends of the slots, of the forbidden region and of what lies outside; and for the frames, a completing
move of each kind on a canonical state, a halted one too. -/
theorem witness_HostMovesReachTheirRegisterSlotOrCartridgeOnly :
    sample.cfg.collaborators = false ∧ (openSystem sample).cfg.collaborators = true ∧
      (0x2000 ≤ (0x2000#16).toNat ∧ (0x4017#16).toNat ≤ 0x4017) ∧ (0x4018 ≤ (0x4018#16).toNat ∧ (0x401F#16).toNat ≤ 0x401F) ∧
      ((0x1FFF#16).toNat < 0x2000 ∧ 0x4020 ≤ (0x4020#16).toNat) ∧
      (RegName.x ≠ .a ∧ FlagName.c ≠ .b) ∧
      Inv (openSystem sample) ∧ Inv (haltWith .notImplemented (openSystem sample)) ∧
      (∃ t, runMove (.write 0x2000#16 0x07#8) (openSystem sample) = .next t) ∧
      (∃ t, runMove (.loadProgram [0xA9#8, 0x01#8]) (openSystem sample) = .next t) ∧
      (∃ t, runMove (.setReg .x 0x07#8) (haltWith .notImplemented (openSystem sample)) = .next t) ∧
      (∀ q v, HostMove.loadProgram [0xA9#8] ≠ .write q v) ∧ ∀ bytes, HostMove.write 0x2000#16 0x07#8 ≠ .loadProgram bytes :=
  ⟨by decide, by decide, by decide, by decide, by decide, by decide, rfl, rfl, ⟨_, rfl⟩, ⟨_, rfl⟩, ⟨_, rfl⟩,
    fun _ _ h => HostMove.noConfusion h, fun _ h => HostMove.noConfusion h⟩

end Sys2Proof.Machine.Tests
end

section
/-! SUPPORT. What the stack and control operations leave, said once: each equation is the whole of the operation's outcome. -/

namespace Sys2Proof.Machine

theorem opPha_eq (s : State) :
    opPha s = .next (commit none 1 ((s.withMem (s.mem.write (stackCell s.cfg s.sp) s.a)).withSP (s.sp - 1))) := by
  rw [opPha, push_eq]
  rfl

theorem opPhp_eq (s : State) :
    opPhp s = .next (commit none 1
      ((s.withMem (s.mem.write (stackCell s.cfg s.sp) (packStatus .instruction s.flags))).withSP (s.sp - 1))) := by
  rw [opPhp, pushStatus, push_eq]
  rfl

theorem opPla_eq (s : State) :
    opPla s = .next (commit none 1 (putA (s.mem.read (stackCell s.cfg (s.sp + 1))) (s.withSP (s.sp + 1)))) := by
  rw [opPla, pop_eq]
  rfl

theorem opPlp_eq (s : State) :
    opPlp s = .next (commit none 1
      ((s.withSP (s.sp + 1)).withFlags (unpackStatus (s.mem.read (stackCell s.cfg (s.sp + 1))) s.flags))) := by
  rw [opPlp, popStatus_eq]
  rfl

/-- The popped word plus one becomes `pc`, and `SP` rises by two. -/
theorem returnTo_eq (s : State) :
    returnTo s = .next (commit
      (some (joinBytes (s.mem.read (stackCell s.cfg (s.sp + 1))) (s.mem.read (stackCell s.cfg (s.sp + 1 + 1))) + 1)) 1
      (s.withSP (s.sp + 1 + 1))) := by
  rw [returnTo, popWord_eq]
  rfl

/-- RTI returns from the state that the popped status leaves. -/
theorem opRti_eq (s : State) :
    opRti s = returnTo
      ((s.withSP (s.sp + 1)).withFlags (unpackStatus (s.mem.read (stackCell s.cfg (s.sp + 1))) s.flags)) := by
  rw [opRti, popStatus_eq]
  rfl

/-- A jump completes exactly when its operand designates an address, and then changes `pc` alone. -/
theorem opJmp_next {o : Operand} {s t : State} :
    opJmp o s = .next t ↔ ∃ ea, operandAddress o s = .next ea ∧ t = commit (some ea) o.len s := by
  rw [opJmp, andThen_eq_next]
  exact exists_congr fun ea => and_congr_right fun _ => by rw [Host.Outcome.next.injEq, eq_comm]

/-- A call completes exactly when its operand designates an address, and then pushes the address of its last byte. -/
theorem opJsr_next {o : Operand} {s t : State} :
    opJsr o s = .next t ↔ ∃ ea u, operandAddress o s = .next ea ∧ pushWord (s.pc + 2) s = .next u ∧
      t = commit (some ea) o.len u := by
  simp only [opJsr, andThen_eq_next, Host.Outcome.next.injEq]
  constructor
  · rintro ⟨ea, h, u, hu, rfl⟩
    exact ⟨ea, u, h, hu, rfl⟩
  · rintro ⟨ea, u, h, hu, rfl⟩
    exact ⟨ea, h, u, hu, rfl⟩

/-- A word pushed leaves every register but `SP`, the flags, `pc`, the latch and the parameters. -/
theorem pushWord_next {w : Addr} {s u : State} (h : pushWord w s = .next u) :
    u.a = s.a ∧ u.x = s.x ∧ u.y = s.y ∧ u.flags = s.flags ∧ u.pc = s.pc ∧ u.latch = s.latch ∧ u.cfg = s.cfg := by
  rw [pushWord_eq] at h
  cases h
  exact ⟨rfl, rfl, rfl, rfl, rfl, rfl, rfl⟩

end Sys2Proof.Machine
end

section
/-! PROOF of O8: every outcome of execution is a next state, the fault of a forbidden address, or that of BRK. -/

namespace Sys2Proof.Machine

/-- JMP, direct or through a pointer. -/
theorem opJmp_ends {o : Operand} (s : State) (h : o.format ∈ formats .jmp) : CompletesOrForbidden o.format (opJmp o s) := by
  cases o <;> simp [Operand.format, formats] at h
  case abs w => exact .inl ⟨_, rfl⟩
  case ind p =>
    rcases resolve_cases (.ind p) s with ⟨d, e⟩ | ⟨_, q, -, hf, e⟩
    · obtain ⟨ea, -, e'⟩ := andThen_eq_next.1 e
      cases e'
      exact .inl ⟨_, by rw [opJmp, operandAddress, e]; rfl⟩
    · exact .inr ⟨q, by rw [opJmp, operandAddress, e]; rfl, hf, by simp [Operand.format, reachingFormats]⟩

/-- JSR always completes: its operand is the address itself, and its pushes reach RAM only. -/
theorem opJsr_abs_completes (w : Addr) (s : State) : ∃ t, opJsr (.abs w) s = .next t :=
  ⟨_, opJsr_next.2 ⟨w, _, rfl, pushWord_eq _ s, rfl⟩⟩

/-- The operation of every mnemonic but BRK, at a format the mnemonic has, completes or meets a forbidden address. -/
theorem execOp_ends {m : Mnemonic} {o : Operand} (s : State) (hm : m ≠ .brk) (h : o.format ∈ formats m) :
    CompletesOrForbidden o.format (execOp m o s) := by
  cases m with
  | ora | and | eor | bit | adc | sbc | cmp | cpx | cpy | lda | ldx | ldy =>
    exact readInstr_ends _ s (List.subset_def.1 (by decide) h)
  | sta | stx | sty => exact storeInstr_ends _ s (List.subset_def.1 (by decide) h)
  | asl | lsr | rol | ror | inc | dec => exact modifyInstr_ends _ _ s (List.subset_def.1 (by decide) h)
  | bpl | bmi | bvc | bvs | bcc | bcs | bne | beq =>
    cases o <;> simp [Operand.format, formats] at h
    exact .inl ⟨_, rfl⟩
  | inx | dex | iny | dey | tax | txa | tay | tya | tsx | txs | clc | sec | cli | sei | clv | cld | sed | nop =>
    exact .inl ⟨_, rfl⟩
  | pha => exact .inl ⟨_, opPha_eq s⟩
  | pla => exact .inl ⟨_, opPla_eq s⟩
  | php => exact .inl ⟨_, opPhp_eq s⟩
  | plp => exact .inl ⟨_, opPlp_eq s⟩
  | rts => exact .inl ⟨_, returnTo_eq s⟩
  | rti => exact .inl ⟨_, (opRti_eq s).trans (returnTo_eq _)⟩
  | jmp => exact opJmp_ends s h
  | jsr =>
    cases o <;> simp [Operand.format, formats] at h
    exact .inl (opJsr_abs_completes _ s)
  | brk => exact absurd rfl hm

/-- BRK is the one instruction of its mnemonic. -/
theorem eq_brk_of_mnemonic {i : Instr} (h : i.mnemonic = .brk) : i = .brk := by
  cases i with
  | brk => rfl
  | _ => cases h

/-- The ways an instruction can end: BRK faults, and every other one completes or meets a forbidden address. -/
theorem exec_ends (i : Instr) (s : State) :
    (i = .brk ∧ exec i s = .fault .notImplemented) ∨ CompletesOrForbidden i.operand.format (exec i s) := by
  by_cases hm : i.mnemonic = .brk
  · obtain rfl := eq_brk_of_mnemonic hm
    exact .inl ⟨rfl, rfl⟩
  · rw [exec_eq_execOp]
    exact .inr (execOp_ends s hm (format_mem_formats i))

/-- Settles O8: the two ways an operation can end, and BRK's fault, are no refusals. -/
theorem executionNeverRefuses : Obligations.ExecutionNeverRefuses := by
  unfold Obligations.ExecutionNeverRefuses
  intro i s r h
  rcases exec_ends i s with ⟨-, e⟩ | ⟨t, e⟩ | ⟨p, e, -⟩ <;> cases h.symm.trans e

end Sys2Proof.Machine
end

section
/-! PROOF of O17: the frame of the registers, shape by shape. -/

namespace Sys2Proof.Machine

/-- What an instruction that writes no register keeps: all of them, but `A` where `A` is the operand itself. -/
structure KeepsRegisters (o : Operand) (s t : State) : Prop where
  a : t.a ≠ s.a → o = .acc
  x : t.x = s.x
  y : t.y = s.y
  sp : t.sp = s.sp
  latch : t.latch = s.latch
  cfg : t.cfg = s.cfg

/-- The "written by" column of the registers (10_state.md R20), for a mnemonic at an operand. -/
def RegisterFrame (m : Mnemonic) (o : Operand) (s t : State) : Prop :=
  (t.a ≠ s.a → m ∈ [.ora, .and, .eor, .adc, .sbc, .lda, .txa, .tya, .pla] ∨ o = .acc) ∧
  (t.x ≠ s.x → m ∈ [.ldx, .tax, .inx, .dex, .tsx]) ∧
  (t.y ≠ s.y → m ∈ [.ldy, .tay, .iny, .dey]) ∧
  (t.sp ≠ s.sp → m ∈ [.pha, .php, .jsr, .pla, .plp, .rts, .rti, .txs]) ∧
  t.latch = s.latch ∧ t.cfg = s.cfg

theorem KeepsRegisters.registerFrame {o : Operand} {s t : State} (h : KeepsRegisters o s t) (m : Mnemonic) :
    RegisterFrame m o s t :=
  ⟨fun e => .inr (h.a e), fun e => absurd h.x e, fun e => absurd h.y e, fun e => absurd h.sp e, h.latch, h.cfg⟩

/-- Only the accumulator form resolves to the accumulator. -/
theorem resolve_eq_acc {o : Operand} {s : State} (h : resolve o s = .next .acc) : o = .acc := by
  cases o <;> simp [resolve, andThen_eq_next] at h
  rfl

/-- A result stored where an operand resolves to reaches no register but `A`, and `A` in the accumulator form only. -/
theorem storeResult_keepsRegisters {o : Operand} {d : Descriptor} {v : Byte} {s t : State} (hd : resolve o s = .next d)
    (h : storeResult d v s = .next t) : KeepsRegisters o s t := by
  rcases storeResult_next h with ⟨rfl, rfl⟩ | ⟨ea, k, -, -, rfl⟩
  · exact ⟨fun _ => resolve_eq_acc hd, rfl, rfl, rfl, rfl, rfl⟩
  · exact ⟨fun e => absurd rfl e, rfl, rfl, rfl, rfl, rfl⟩

theorem storeInstr_keepsRegisters {o : Operand} {v : Byte} {s t : State} (h : storeInstr o v s = .next t) :
    KeepsRegisters o s t := by
  obtain ⟨d, u, hd, hu, rfl⟩ := storeInstr_next.1 h
  have k := storeResult_keepsRegisters hd hu
  exact ⟨k.a, k.x, k.y, k.sp, k.latch, k.cfg⟩

theorem modifyInstr_keepsRegisters {o : Operand} {g : Byte → Byte} {fl : Byte → Flags} {s t : State}
    (h : modifyInstr o g fl s = .next t) : KeepsRegisters o s t := by
  obtain ⟨d, m, u, hd, -, hu, rfl⟩ := modifyInstr_next.1 h
  have k := storeResult_keepsRegisters hd hu
  exact ⟨k.a, k.x, k.y, k.sp, k.latch, k.cfg⟩

/-- A branch is the redirect alone. -/
theorem branchInstr_keepsRegisters {c : Bool} {off : Byte} {o : Operand} {s t : State} (h : branchInstr c off s = .next t) :
    KeepsRegisters o s t := by
  cases h
  exact ⟨fun e => absurd rfl e, rfl, rfl, rfl, rfl, rfl⟩

/-- The register frame of every shared operation, at any operand. -/
theorem execOp_registerFrame {m : Mnemonic} {o : Operand} {s t : State} (h : execOp m o s = .next t) :
    RegisterFrame m o s t := by
  cases m with
  | ora | and | eor | bit | adc | sbc | cmp | cpx | cpy | lda | ldx | ldy =>
    obtain ⟨v, -, rfl⟩ := readInstr_next.1 h
    simp [RegisterFrame, addToA]
  | sta | stx | sty => exact (storeInstr_keepsRegisters h).registerFrame _
  | asl | lsr | rol | ror | inc | dec => exact (modifyInstr_keepsRegisters h).registerFrame _
  | bpl | bmi | bvc | bvs | bcc | bcs | bne | beq =>
    cases o with
    | rel off => exact (branchInstr_keepsRegisters h).registerFrame _
    | _ => cases h
  | inx | dex | iny | dey | tax | txa | tay | tya | tsx | txs | clc | sec | cli | sei | clv | cld | sed | nop =>
    cases h
    simp [RegisterFrame]
  | pha | php | pla | plp | rts | rti =>
    simp only [execOp, opPha_eq, opPhp_eq, opPla_eq, opPlp_eq, opRts, opRti_eq, returnTo_eq] at h
    cases h
    simp [RegisterFrame]
  | jmp =>
    obtain ⟨ea, -, rfl⟩ := opJmp_next.1 h
    simp [RegisterFrame]
  | jsr =>
    obtain ⟨ea, u, -, hu, rfl⟩ := opJsr_next.1 h
    obtain ⟨ha, hx, hy, -, -, hlatch, hcfg⟩ := pushWord_next hu
    simp [RegisterFrame, ha, hx, hy, hlatch, hcfg]
  | brk => cases h

/-- Settles O17: the frame of the shared operation of the instruction's mnemonic, at its operand. -/
theorem registersChangeOnlyByTheirWriters : Obligations.RegistersChangeOnlyByTheirWriters := by
  unfold Obligations.RegistersChangeOnlyByTheirWriters
  intro i s t h
  rw [exec_eq_execOp] at h
  exact execOp_registerFrame h

end Sys2Proof.Machine
end

section
/-! SUPPORT. The host's moves: set and get access, a program load, and what a completing move of a run can be. -/

namespace Sys2Proof.Machine

/-! ### Set and get access -/

@[simp] theorem setReg_pc (r : RegName) (v : Byte) (s : State) : (setReg r v s).pc = s.pc := by cases r <;> rfl
@[simp] theorem setReg_flags (r : RegName) (v : Byte) (s : State) : (setReg r v s).flags = s.flags := by cases r <;> rfl
@[simp] theorem setReg_mem (r : RegName) (v : Byte) (s : State) : (setReg r v s).mem = s.mem := by cases r <;> rfl
@[simp] theorem setReg_latch (r : RegName) (v : Byte) (s : State) : (setReg r v s).latch = s.latch := by cases r <;> rfl
@[simp] theorem setReg_cfg (r : RegName) (v : Byte) (s : State) : (setReg r v s).cfg = s.cfg := by cases r <;> rfl

@[simp] theorem getReg_setReg_same (r : RegName) (v : Byte) (s : State) : getReg r (setReg r v s) = v := by cases r <;> rfl

theorem getReg_setReg_other {q r : RegName} (ne : q ≠ r) (v : Byte) (s : State) :
    getReg q (setReg r v s) = getReg q s := by
  cases r <;> cases q
  case a.a | x.x | y.y | sp.sp => exact absurd rfl ne
  all_goals rfl

@[simp] theorem setFlag_pc (f : FlagName) (e : Bool) (s : State) : (setFlag f e s).pc = s.pc := by cases f <;> rfl
@[simp] theorem setFlag_mem (f : FlagName) (e : Bool) (s : State) : (setFlag f e s).mem = s.mem := by cases f <;> rfl
@[simp] theorem setFlag_latch (f : FlagName) (e : Bool) (s : State) : (setFlag f e s).latch = s.latch := by cases f <;> rfl
@[simp] theorem setFlag_cfg (f : FlagName) (e : Bool) (s : State) : (setFlag f e s).cfg = s.cfg := by cases f <;> rfl

@[simp] theorem getReg_setFlag (q : RegName) (f : FlagName) (e : Bool) (s : State) :
    getReg q (setFlag f e s) = getReg q s := by cases f <;> cases q <;> rfl

@[simp] theorem getFlag_setFlag_same (f : FlagName) (e : Bool) (s : State) : getFlag f (setFlag f e s) = e := by
  cases f <;> rfl

theorem getFlag_setFlag_other {g f : FlagName} (ne : g ≠ f) (e : Bool) (s : State) :
    getFlag g (setFlag f e s) = getFlag g s := by
  cases f <;> cases g
  case c.c | z.z | i.i | d.d | b.b | v.v | n.n => exact absurd rfl ne
  all_goals rfl

/-! ### A program load -/

/-- A number from the cartridge base upwards names a cell. -/
theorem isCell_cart {k : Nat} (lo : 0x4020 ≤ k) (hi : k < 0x10000) : isCell k = true := by
  simp [isCell, lo, hi]

/-- Loading bytes into the cartridge leaves every cell below the first byte alone. -/
theorem read_load_below {bytes : List Byte} {j k : Nat} {m : Memory} (wf : m.wf = true) (lo : 0x4020 ≤ j)
    (hi : j + bytes.length ≤ 0x10000) (lt : k < j) : (Memory.load j bytes m).read k = m.read k := by
  induction bytes generalizing j m with
  | nil => rfl
  | cons v vs ih =>
    rw [List.length_cons] at hi
    have hw : (m.write j v).wf = true := wf_write wf (isCell_cart lo (by omega))
    calc (Memory.load (j + 1) vs (m.write j v)).read k
      _ = (m.write j v).read k := ih hw (by omega) (by omega) (by omega)
      _ = m.read k := read_write_other wf (by omega)

/-- A load that completes fits the cartridge, and changes the storage alone. -/
theorem loadProgram_next {bytes : List Byte} {s t : State} :
    loadProgram bytes s = .next t ↔ bytes.length ≤ 0xBFE0 ∧ t = s.withMem (Memory.load 0x4020 bytes s.mem) := by
  rw [loadProgram, Config.cartSize, Config.cartBase]
  split
  · next h => simp [Nat.not_le.2 h]
  · next h => simp [Nat.not_lt.1 h, eq_comm]

/-! ### Reads and the region of a cell -/

/-- The cell of an address stands on the same side of each region's bounds as the address. -/
theorem cellOf_bounds {p : Addr} {k : Nat} (h : cellOf p = some k) :
    (k < 0x2000 ↔ p.toNat < 0x2000) ∧ (k < 0x4018 ↔ p.toNat < 0x4018) ∧ (k < 0x4020 ↔ p.toNat < 0x4020) := by
  rw [cellOf_eq] at h
  repeat' split at h
  all_goals simp only [Option.some.injEq, reduceCtorEq] at h
  all_goals omega

/-- An address reads the same from two states whose storage holds the same in its cell. -/
theorem memRead_congr_cell {p : Addr} {s t : State} (h : ∀ k, cellOf p = some k → t.mem.read k = s.mem.read k) :
    memRead p t = memRead p s := by
  rcases memRead_cases p s with ⟨k, hk, e⟩ | ⟨hf, e⟩
  · rw [e, memRead_of_cell hk, h k hk]
  · rw [e, memRead_of_forbidden hf]

/-! ### The moves of a run -/

theorem inSlots_iff (p : Addr) : inSlots p = true ↔ 0x2000 ≤ p.toNat ∧ p.toNat ≤ 0x4017 := by
  simp [inSlots]

theorem runMove_closed {s : State} (hc : s.cfg.collaborators = false) (h : HostMove) :
    runMove h s = .refused .closedSystem := by
  simp [runMove, hc]

/-- A write of an open run reaches the slots and the forbidden region, through the region map, and nothing else. -/
theorem runMove_write {s : State} (hc : s.cfg.collaborators = true) (p : Addr) (v : Byte) :
    runMove (.write p v) s = if inSlots p || forbidden p then memWrite p v s else .refused .outsideSlots := by
  simp [runMove, hc]

theorem runMove_setReg {s : State} (hc : s.cfg.collaborators = true) (r : RegName) (v : Byte) :
    runMove (.setReg r v) s = .next (setReg r v s) := by
  simp [runMove, bootMove, hc]

theorem runMove_setPc {s : State} (hc : s.cfg.collaborators = true) (p : Addr) :
    runMove (.setPc p) s = .next (s.withPC p) := by
  simp [runMove, bootMove, hc]

theorem runMove_setFlag {s : State} (hc : s.cfg.collaborators = true) (f : FlagName) (e : Bool) :
    runMove (.setFlag f e) s = .next (setFlag f e s) := by
  simp [runMove, bootMove, hc]

theorem runMove_loadProgram {s : State} (hc : s.cfg.collaborators = true) (bytes : List Byte) :
    runMove (.loadProgram bytes) s = loadProgram bytes s := by
  simp [runMove, bootMove, hc]

theorem runMove_write_slots {s : State} (hc : s.cfg.collaborators = true) {p : Addr} (v : Byte) (lo : 0x2000 ≤ p.toNat)
    (hi : p.toNat ≤ 0x4017) : runMove (.write p v) s = memWrite p v s := by
  simp [runMove_write hc, (inSlots_iff p).2 ⟨lo, hi⟩]

theorem runMove_write_forbidden {s : State} (hc : s.cfg.collaborators = true) {p : Addr} (v : Byte)
    (hf : forbidden p = true) : runMove (.write p v) s = .fault (.restrictedRegion p) := by
  simp [runMove_write hc, hf, memWrite_of_forbidden hf]

theorem runMove_write_outside {s : State} (hc : s.cfg.collaborators = true) {p : Addr} (v : Byte)
    (out : p.toNat < 0x2000 ∨ 0x4020 ≤ p.toNat) : runMove (.write p v) s = .refused .outsideSlots := by
  have hs : inSlots p = false := Bool.eq_false_iff.2 fun e => by have := (inSlots_iff p).1 e; omega
  have hf : forbidden p = false := Bool.eq_false_iff.2 fun e => by have := (forbidden_iff p).1 e; omega
  simp [runMove_write hc, hs, hf]

/-- What a completing move does to the storage: nothing, one write to a slot's cell, or a load of the cartridge. -/
inductive StorageMove (s t : State) : HostMove → Prop where
  | keep {h : HostMove} (mem : t.mem = s.mem) : StorageMove s t h
  | slot {q : Addr} {v : Byte} {k : Nat} (cell : cellOf q = some k) (lo : 0x2000 ≤ k) (hi : k < 0x4018)
      (mem : t.mem = s.mem.write k v) : StorageMove s t (.write q v)
  | cart {bytes : List Byte} (len : bytes.length ≤ 0xBFE0) (mem : t.mem = Memory.load 0x4020 bytes s.mem) :
      StorageMove s t (.loadProgram bytes)

/-- A completing write of an open run is one write to a slot's cell. -/
theorem runMove_write_next {s t : State} (hc : s.cfg.collaborators = true) {q : Addr} {v : Byte}
    (e : runMove (.write q v) s = .next t) :
    ∃ k, cellOf q = some k ∧ 0x2000 ≤ k ∧ k < 0x4018 ∧ t = s.withMem (s.mem.write k v) := by
  rw [runMove_write hc] at e
  split at e
  · next hq =>
    rcases memWrite_cases q v s with ⟨k, hk, e'⟩ | ⟨-, e'⟩ <;> cases e.symm.trans e'
    have hf : forbidden q ≠ true := fun hf => by rw [(cellOf_eq_none q).2 hf] at hk; cases hk
    have hs : 0x2000 ≤ q.toNat ∧ q.toNat ≤ 0x4017 := (inSlots_iff q).1 ((Bool.or_eq_true _ _ ▸ hq).resolve_right hf)
    have hb := cellOf_bounds hk
    exact ⟨k, hk, by omega, by omega, rfl⟩
  · cases e

/-- A completing move of an open run keeps latch and parameters, and reaches the storage as its kind says. -/
theorem runMove_next {s t : State} (hc : s.cfg.collaborators = true) {h : HostMove} (e : runMove h s = .next t) :
    t.latch = s.latch ∧ t.cfg = s.cfg ∧ StorageMove s t h := by
  cases h with
  | write q v =>
    obtain ⟨k, hk, lo, hi, rfl⟩ := runMove_write_next hc e
    exact ⟨rfl, rfl, .slot hk lo hi rfl⟩
  | setReg r v =>
    cases (runMove_setReg hc r v).symm.trans e
    exact ⟨setReg_latch .., setReg_cfg .., .keep (setReg_mem ..)⟩
  | setPc p =>
    cases (runMove_setPc hc p).symm.trans e
    exact ⟨rfl, rfl, .keep rfl⟩
  | setFlag f b =>
    cases (runMove_setFlag hc f b).symm.trans e
    exact ⟨setFlag_latch .., setFlag_cfg .., .keep (setFlag_mem ..)⟩
  | loadProgram bytes =>
    rw [runMove_loadProgram hc] at e
    obtain ⟨len, rfl⟩ := loadProgram_next.1 e
    exact ⟨rfl, rfl, .cart len rfl⟩

end Sys2Proof.Machine
end

section
/-! PROOF of O60: the host's moves in a run. -/

namespace Sys2Proof.Machine

/-- A move that reaches the storage as its kind says reads the same at every address outside that kind's region. -/
theorem StorageMove.memRead_frame {s t : State} {h : HostMove} (m : StorageMove s t h) (wf : Inv s) (p : Addr) :
    (p.toNat < 0x2000 → memRead p t = memRead p s) ∧
    ((∀ q v, h ≠ .write q v) → p.toNat < 0x4020 → memRead p t = memRead p s) ∧
    ((∀ bytes, h ≠ .loadProgram bytes) → 0x4018 ≤ p.toNat → memRead p t = memRead p s) := by
  cases m with
  | keep mem =>
    have kept : memRead p t = memRead p s := memRead_congr mem p
    exact ⟨fun _ => kept, fun _ _ => kept, fun _ _ => kept⟩
  | @slot q v k _ lo hi mem =>
    have outside (out : p.toNat < 0x2000 ∨ 0x4018 ≤ p.toNat) : memRead p t = memRead p s :=
      memRead_congr_cell fun j hj => by
        have hb := cellOf_bounds hj
        rw [mem, read_write_other wf (by omega)]
    exact ⟨fun lt => outside (.inl lt), fun hw => absurd rfl (hw q v), fun _ ge => outside (.inr ge)⟩
  | @cart bytes len mem =>
    have below (lt : p.toNat < 0x4020) : memRead p t = memRead p s :=
      memRead_congr_cell fun j hj => by
        rw [mem, read_load_below wf (Nat.le_refl _) (by omega) ((cellOf_bounds hj).2.2.2 lt)]
    exact ⟨fun lt => below (by omega), fun _ => below, fun hl => absurd rfl (hl bytes)⟩

/-- Settles O60: each kind of move by the lemma about it, and the frames by what a completing move does to the storage. -/
theorem hostMovesReachTheirRegisterSlotOrCartridgeOnly :
    Obligations.HostMovesReachTheirRegisterSlotOrCartridgeOnly := by
  unfold Obligations.HostMovesReachTheirRegisterSlotOrCartridgeOnly
  intro s
  refine ⟨fun hc h => by rw [act, runMove_closed hc], fun hc => ⟨?_, ?_, ?_, ?_, ?_, ?_, ?_, ?_⟩⟩
  · exact fun p v => runMove_write_slots hc v
  · exact fun p v lo hi => runMove_write_forbidden hc v ((forbidden_iff p).2 ⟨lo, hi⟩)
  · exact fun p v => runMove_write_outside hc v
  · exact runMove_loadProgram hc
  · exact runMove_setPc hc
  · exact fun r v => ⟨setReg r v s, runMove_setReg hc r v, getReg_setReg_same ..,
      fun _ ne => getReg_setReg_other ne .., setReg_pc .., setReg_flags .., setReg_mem ..⟩
  · exact fun f e => ⟨setFlag f e s, runMove_setFlag hc f e, getFlag_setFlag_same ..,
      fun _ ne => getFlag_setFlag_other ne .., setFlag_pc .., fun _ => getReg_setFlag .., setFlag_mem ..⟩
  · intro h t wf e
    obtain ⟨hlatch, hcfg, hmem⟩ := runMove_next hc e
    exact ⟨hlatch, hcfg, hmem.memRead_frame wf⟩

end Sys2Proof.Machine
end

section
/-! PROOF of O58: power-on. -/

namespace Sys2Proof.Machine

/-- Settles O58: the fields of the launch state, and of the one launch state that the model resets to. -/
theorem powerOnState : Obligations.PowerOnState := by
  unfold Obligations.PowerOnState
  exact ⟨fun l => ⟨rfl, rfl, rfl, rfl, rfl, rfl, rfl, rfl, rfl⟩, rfl⟩

end Sys2Proof.Machine
end

section
/-! SUPPORT. The two outcomes of a reading instruction, and the register writes that set Z and N, as records. -/

namespace Sys2Proof.Machine

theorem readInstr_of_value {o : Operand} {f : Byte → State} {s : State} {m : Byte} (h : operandValue o s = .next m) :
    readInstr o f s = .next (commit none o.len (f m)) :=
  readInstr_next.2 ⟨m, h, rfl⟩

theorem readInstr_of_fault {o : Operand} {f : Byte → State} {s : State} {r : Fault} (h : operandValue o s = .fault r) :
    readInstr o f s = .fault r := by
  rw [readInstr, h, andThen_fault]

/-- An instruction that reads its operand passes on the fault of reading it. -/
theorem exec_fault_of_operandValue {i : Instr} {s : State} {r : Fault}
    (hm : i.mnemonic ∈ [.ora, .and, .eor, .bit, .adc, .sbc, .cmp, .cpx, .cpy, .lda, .ldx, .ldy])
    (h : operandValue i.operand s = .fault r) : exec i s = .fault r := by
  rw [exec_eq_execOp]
  cases e : i.mnemonic with
  | ora | and | eor | bit | adc | sbc | cmp | cpx | cpy | lda | ldx | ldy => exact readInstr_of_fault h
  | _ => simp [e] at hm

theorem commit_putA (v : Byte) (n : Nat) (s : State) :
    commit none n (putA v s) = { s with a := v, flags := zeroNegative v s.flags, pc := s.pc + BitVec.ofNat 16 n } := by
  rw [← setZN_eq_zeroNegative]
  rfl

theorem commit_putX (v : Byte) (n : Nat) (s : State) :
    commit none n (putX v s) = { s with x := v, flags := zeroNegative v s.flags, pc := s.pc + BitVec.ofNat 16 n } := by
  rw [← setZN_eq_zeroNegative]
  rfl

theorem commit_putY (v : Byte) (n : Nat) (s : State) :
    commit none n (putY v s) = { s with y := v, flags := zeroNegative v s.flags, pc := s.pc + BitVec.ofNat 16 n } := by
  rw [← setZN_eq_zeroNegative]
  rfl

end Sys2Proof.Machine
end

section
/-! PROOF of O20, O21, O30: the reading instructions that put a value into a register or test bits. -/

namespace Sys2Proof.Machine

/-- Settles O20: each of the three reads its operand and puts the result into `A`. -/
theorem logicalInstructionsCompute : Obligations.LogicalInstructionsCompute := by
  unfold Obligations.LogicalInstructionsCompute
  intro i s
  refine ⟨fun m h => ⟨fun hm => ?_, fun hm => ?_, fun hm => ?_⟩,
    fun f h hm => exec_fault_of_operandValue (List.subset_def.1 (by decide) hm) h⟩
  all_goals
    rw [exec_eq_execOp, hm, ← commit_putA]
    exact readInstr_of_value h

/-- Settles O21: BIT reads its operand and replaces the flags alone. -/
theorem bitTestTakesNegativeAndOverflowFromTheOperand :
    Obligations.BitTestTakesNegativeAndOverflowFromTheOperand := by
  unfold Obligations.BitTestTakesNegativeAndOverflowFromTheOperand
  intro i s hm
  refine ⟨fun m h => ?_, fun f h => exec_fault_of_operandValue (by simp [hm]) h⟩
  rw [exec_eq_execOp, hm]
  exact readInstr_of_value h

/-- Settles O30: each of the three reads its operand and puts it into its register. -/
theorem loadsCompute : Obligations.LoadsCompute := by
  unfold Obligations.LoadsCompute
  intro i s
  refine ⟨fun m h => ⟨fun hm => ?_, fun hm => ?_, fun hm => ?_⟩,
    fun f h hm => exec_fault_of_operandValue (List.subset_def.1 (by decide) hm) h⟩
  · rw [exec_eq_execOp, hm, ← commit_putA]
    exact readInstr_of_value h
  · rw [exec_eq_execOp, hm, ← commit_putX]
    exact readInstr_of_value h
  · rw [exec_eq_execOp, hm, ← commit_putY]
    exact readInstr_of_value h

end Sys2Proof.Machine
end

section
/-! SUPPORT. One-byte instructions: the table reads them back from their opcode byte, so that a step which fetches that byte
is their execution. -/

namespace Sys2Proof.Machine

/-- The table of a run has an entry for every instruction well formed in that run. -/
theorem tableEntry_opcode {i : Instr} {ext : Bool} (wf : i.wellFormed ext = true) :
    tableEntry ext i.opcode = fullEntry i.opcode := by
  obtain ⟨-, hext, -⟩ := encoding_facts i
  rw [tableEntry, hext, if_neg]
  cases ext <;> simp_all [Instr.wellFormed]

theorem fullEntry_of_oneByte {i : Instr} (h : i.operand.bytes = []) : fullEntry i.opcode = .one i := by
  obtain ⟨-, -, ⟨e, -⟩ | ⟨f, b, -, -, hb⟩ | ⟨f, w, -, -, hb⟩⟩ := encoding_facts i
  · exact e
  · simp [h] at hb
  · simp [h] at hb

theorem fetchInstr_of_oneByte {i : Instr} {s : State} (h : i.operand.bytes = [])
    (wf : i.wellFormed s.cfg.extOfficial = true) (hop : memRead s.pc s = .next i.opcode) : fetchInstr s = .next i := by
  rw [fetchInstr, hop, andThen_next, tableEntry_opcode wf, fullEntry_of_oneByte h]

/-- A fault of the opcode fetch is the fault of the step. -/
theorem step_of_opcode_fault {s : State} {f : Fault} (hl : s.latch = none) (h : memRead s.pc s = .fault f) :
    step s = .fault f := by
  rw [step_of_latch hl, fetchInstr, h, andThen_fault, andThen_fault]

/-- A one-byte instruction whose execution is known in every state runs so. -/
theorem runsAs_of_exec {i : Instr} {effect : State → State} (h : i.operand.bytes = [])
    (he : ∀ s, exec i s = .next (effect s)) : RunsAs i effect := by
  intro s
  refine ⟨he s, fun hl wf => ⟨fun hop => ?_, fun f => step_of_opcode_fault hl⟩⟩
  rw [step_of_latch hl, fetchInstr_of_oneByte h wf hop, andThen_next, he]

end Sys2Proof.Machine
end

section
/-! PROOF of O29, O32: the one-byte instructions that write a data register. -/

namespace Sys2Proof.Machine

/-- Settles O29: each puts its register, one more or one less, back. -/
theorem registerIncrementsAndDecrements : Obligations.RegisterIncrementsAndDecrements := by
  unfold Obligations.RegisterIncrementsAndDecrements
  refine ⟨⟨rfl, ?_⟩, ⟨rfl, ?_⟩, ⟨rfl, ?_⟩, ⟨rfl, ?_⟩⟩
  · exact runsAs_of_exec rfl fun s => congrArg _ (commit_putX (s.x + 1) 1 s)
  · exact runsAs_of_exec rfl fun s => congrArg _ (commit_putX (s.x - 1) 1 s)
  · exact runsAs_of_exec rfl fun s => congrArg _ (commit_putY (s.y + 1) 1 s)
  · exact runsAs_of_exec rfl fun s => congrArg _ (commit_putY (s.y - 1) 1 s)

/-- Settles O32: each puts its source into its destination. -/
theorem transfersCopyAndSetZeroNegative : Obligations.TransfersCopyAndSetZeroNegative := by
  unfold Obligations.TransfersCopyAndSetZeroNegative
  refine ⟨⟨rfl, ?_⟩, ⟨rfl, ?_⟩, ⟨rfl, ?_⟩, ⟨rfl, ?_⟩⟩
  · exact runsAs_of_exec rfl fun s => congrArg _ (commit_putX s.a 1 s)
  · exact runsAs_of_exec rfl fun s => congrArg _ (commit_putA s.x 1 s)
  · exact runsAs_of_exec rfl fun s => congrArg _ (commit_putY s.a 1 s)
  · exact runsAs_of_exec rfl fun s => congrArg _ (commit_putA s.y 1 s)

end Sys2Proof.Machine
end

section
/-! SUPPORT. The status byte as a number, and a popped word as a number. -/

namespace Sys2Proof.Machine

theorem bitVal_mul (c : Bool) (k : Nat) : bitVal c * k = if c then k else 0 := by
  cases c
  · exact Nat.zero_mul k
  · exact Nat.one_mul k

/-- What PHP pushes, as R25 adds it up. -/
theorem packStatus_instruction (f : Flags) :
    packStatus .instruction f = BitVec.ofNat 8
      ((if f.n then 128 else 0) + (if f.v then 64 else 0) + 32 + 16 + (if f.d then 8 else 0) +
        (if f.i then 4 else 0) + (if f.z then 2 else 0) + (if f.c then 1 else 0)) := by
  simp only [packStatus, bitVal_mul, Nat.one_mul]

theorem joinBytes_eq_ofNat (lo hi : Byte) : joinBytes lo hi = BitVec.ofNat 16 (hi.toNat * 256 + lo.toNat) := by
  rw [← joinBytes_toNat, BitVec.ofNat_toNat, BitVec.setWidth_eq]

end Sys2Proof.Machine
end

section
/-! PROOF of O57, O56, O35, O39: the status byte, and the instructions that push and pull it. -/

namespace Sys2Proof.Machine

/-- Settles O57: the packed byte is its eight bits appended. -/
theorem packedStatusLayout : Obligations.PackedStatusLayout := by
  unfold Obligations.PackedStatusLayout
  intro ctx f
  rw [packStatus_eq]
  simp only [BitVec.getLsbD_append]
  simp

/-- Unpacking undoes packing, but for `B`. -/
theorem unpackStatus_packStatus (ctx : PushContext) (f g : Flags) :
    unpackStatus (packStatus ctx f) g = { f with b := g.b } := by
  obtain ⟨hn, hv, -, -, hd, hi, hz, hc⟩ := packedStatusLayout ctx f
  simp only [unpackStatus, hn, hv, hd, hi, hz, hc]

/-- Bit 5 is set in every packed byte, so that none is the unwritten byte. -/
theorem packStatus_ne_unwritten (ctx : PushContext) (f : Flags) : packStatus ctx f ≠ Config.unwrittenByte := by
  intro h
  obtain ⟨-, -, hfive, -⟩ := packedStatusLayout ctx f
  rw [h] at hfive
  cases hfive

/-- Settles O56: bits 5 and 4 are not among the six looked at; the last clause is that unpacking undoes packing. -/
theorem unpackStatusWritesSixFlags : Obligations.UnpackStatusWritesSixFlags := by
  unfold Obligations.UnpackStatusWritesSixFlags
  intro v f g
  refine ⟨rfl, ?_, ?_, fun ctx => unpackStatus_packStatus ctx f g⟩
  · simp [unpackStatus]
  · simp [unpackStatus]

/-- PLP in the state that PHP leaves restores flags and `SP`: it pulls the byte just pushed. -/
theorem opPlp_undoes_opPhp (s : State) : ∃ t u, opPhp s = .next t ∧ opPlp t = .next u ∧ u.flags = s.flags ∧ u.sp = s.sp := by
  have back : s.sp - 1 + 1 = s.sp := BitVec.sub_add_cancel ..
  refine ⟨_, _, opPhp_eq s, opPlp_eq _, ?_, ?_⟩
  · simp only [commit_flags, commit_sp, commit_mem, commit_cfg, withFlags_flags, withSP_flags, withSP_sp, withSP_mem,
      withSP_cfg, withMem_flags, withMem_mem, withMem_cfg, back, read_write_nonzero (packStatus_ne_unwritten _ _),
      unpackStatus_packStatus]
  · simp only [commit_sp, withFlags_sp, withSP_sp, back]

/-- Settles O35: both instructions by what they leave, and PLP undoing PHP. -/
theorem pushAndPullStatus : Obligations.PushAndPullStatus := by
  unfold Obligations.PushAndPullStatus
  refine ⟨⟨rfl, runsAs_of_exec rfl fun s => ?_⟩, ⟨rfl, runsAs_of_exec rfl opPlp_eq⟩, opPlp_undoes_opPhp⟩
  rw [← packStatus_instruction]
  exact opPhp_eq s

/-- Settles O39: the pop of the status, then the return. -/
theorem rtiRestoresStatusThenReturnsPlusOne : Obligations.RtiRestoresStatusThenReturnsPlusOne := by
  unfold Obligations.RtiRestoresStatusThenReturnsPlusOne
  intro s
  have two : s.sp + 1 + 1 = s.sp + 2 := by rw [BitVec.add_assoc]; rfl
  have three : s.sp + 2 + 1 = s.sp + 3 := by rw [BitVec.add_assoc]; rfl
  have h : exec .rti s = _ := (opRti_eq s).trans (returnTo_eq _)
  rw [h]
  simp only [withFlags_sp, withSP_sp, withFlags_mem, withSP_mem, withFlags_cfg, withSP_cfg, two, three, joinBytes_eq_ofNat,
    BitVec.ofNat_add]
  rfl

end Sys2Proof.Machine
end

section
/-! SUPPORT. The storage stays canonical through every operation, and what a host move can leave. -/

namespace Sys2Proof.Machine

theorem isCell_stackCell (c : Config) (p : Byte) : isCell (stackCell c p) = true :=
  isCell_cellOf (cellOf_stackAddr c p)

theorem storeResult_inv {d : Descriptor} {v : Byte} {s t : State} (wf : Inv s) (h : storeResult d v s = .next t) :
    Inv t := by
  rcases storeResult_next h with ⟨-, rfl⟩ | ⟨ea, k, -, hk, rfl⟩
  · exact wf
  · exact wf_write wf (isCell_cellOf hk)

theorem execOp_inv {m : Mnemonic} {o : Operand} {s t : State} (wf : Inv s) (h : execOp m o s = .next t) : Inv t := by
  cases m with
  | ora | and | eor | bit | adc | sbc | cmp | cpx | cpy | lda | ldx | ldy =>
    obtain ⟨v, -, rfl⟩ := readInstr_next.1 h
    exact wf
  | sta | stx | sty =>
    obtain ⟨d, u, -, hu, rfl⟩ := storeInstr_next.1 h
    exact (storeResult_inv wf hu : Inv u)
  | asl | lsr | rol | ror | inc | dec =>
    obtain ⟨d, v, u, -, -, hu, rfl⟩ := modifyInstr_next.1 h
    exact (storeResult_inv wf hu : Inv u)
  | bpl | bmi | bvc | bvs | bcc | bcs | bne | beq =>
    cases o with
    | rel off => cases h; exact wf
    | _ => cases h
  | inx | dex | iny | dey | tax | txa | tay | tya | tsx | txs | clc | sec | cli | sei | clv | cld | sed | nop =>
    cases h
    exact wf
  | pla | plp | rts | rti =>
    simp only [execOp, opPla_eq, opPlp_eq, opRts, opRti_eq, returnTo_eq] at h
    cases h
    exact wf
  | pha | php =>
    simp only [execOp, opPha_eq, opPhp_eq] at h
    cases h
    exact wf_write wf (isCell_stackCell ..)
  | jmp =>
    obtain ⟨ea, -, rfl⟩ := opJmp_next.1 h
    exact wf
  | jsr =>
    obtain ⟨ea, u, -, hu, rfl⟩ := opJsr_next.1 h
    cases (pushWord_eq ..).symm.trans hu
    exact wf_write (wf_write wf (isCell_stackCell ..)) (isCell_stackCell ..)
  | brk => cases h

/-- Every step that completes keeps the storage canonical. -/
theorem step_inv {s t : State} (wf : Inv s) (h : step s = .next t) : Inv t := by
  obtain ⟨-, i, -, he⟩ := step_next h
  rw [exec_eq_execOp] at he
  exact execOp_inv wf he

theorem stepLatched_inv {s : State} (wf : Inv s) : Inv (stepLatched s) := by
  unfold stepLatched
  split
  · exact step_inv wf ‹_›
  · exact wf
  · exact wf

theorem wf_load {bytes : List Byte} {k : Nat} {m : Memory} (wf : m.wf = true) (lo : 0x4020 ≤ k)
    (hi : k + bytes.length ≤ 0x10000) : (Memory.load k bytes m).wf = true := by
  induction bytes generalizing k m with
  | nil => exact wf
  | cons v vs ih =>
    rw [List.length_cons] at hi
    exact ih (wf_write wf (isCell_cart lo (by omega))) (by omega) (by omega)

theorem bootMove_inv {h : HostMove} {s t : State} (wf : Inv s) (e : bootMove h s = .next t) : Inv t := by
  cases h with
  | setReg r v =>
    cases e
    rw [Inv, setReg_mem]
    exact wf
  | setPc p =>
    cases e
    exact wf
  | setFlag f b =>
    cases e
    rw [Inv, setFlag_mem]
    exact wf
  | write p v => exact storeResult_inv (d := .addr p) wf e
  | loadProgram bytes =>
    obtain ⟨len, rfl⟩ := loadProgram_next.1 e
    exact wf_load wf (Nat.le_refl _) (by omega)

/-- What a move of a run does, the same move before the run does too. -/
theorem bootMove_of_runMove {h : HostMove} {s t : State} (e : runMove h s = .next t) : bootMove h s = .next t := by
  unfold runMove at e
  split at e
  · cases e
  · split at e
    · exact e
    · cases e
  all_goals exact e

/-- A host's event is a completing move, or leaves the machine as it is. -/
theorem act_host_cases (h : HostMove) (s : State) :
    runMove h s = .next (act (.host h) s) ∨ act (.host h) s = s := by
  cases e : runMove h s with
  | next t => exact .inl (by rw [act, e])
  | fault r | refused r => exact .inr (by rw [act, e])

end Sys2Proof.Machine
end

section
/-! PROOF of O12, O13: the canonical storage, at power-on and through a run. -/

namespace Sys2Proof.Machine

/-- Settles O12: nothing is listed at reset, and a launch state's storage is its `INIT_MEM`. -/
theorem powerOnStorageIsCanonical : Obligations.PowerOnStorageIsCanonical := by
  unfold Obligations.PowerOnStorageIsCanonical
  exact ⟨rfl, fun _ wf => wf⟩

theorem act_inv {s : State} (wf : Inv s) (e : Event) : Inv (act e s) := by
  cases e with
  | cpu => exact stepLatched_inv wf
  | host h =>
    rcases act_host_cases h s with e | e
    · exact bootMove_inv wf (bootMove_of_runMove e)
    · rwa [e]

/-- Settles O13: an event is a latched step or a host move, and each keeps the storage canonical. -/
theorem eventsAndBootMovesKeepTheStorageCanonical : Obligations.EventsAndBootMovesKeepTheStorageCanonical := by
  unfold Obligations.EventsAndBootMovesKeepTheStorageCanonical
  exact fun s wf => ⟨act_inv wf, fun h t => bootMove_inv wf⟩

end Sys2Proof.Machine
end

section
/-! PROOF of O7: faults are latched, and the latch is never cleared. -/

namespace Sys2Proof.Machine

/-- Every fault of a step has a kind: `programTooLarge` is no step's. -/
theorem step_fault_kind {s : State} {f : Fault} (h : step s = .fault f) : ∃ k, f.kind = some k := by
  cases hl : s.latch with
  | some k => cases (step_of_halted hl).symm.trans h
  | none =>
    rw [step_of_latch hl, andThen_eq_fault] at h
    rcases h with h | ⟨i, -, h⟩
    · rcases fetchInstr_fault h with ⟨op, rfl, -⟩ | ⟨p, rfl, -⟩
      · exact ⟨_, rfl⟩
      · exact ⟨_, rfl⟩
    · rcases exec_ends i s with ⟨-, e⟩ | ⟨t, e⟩ | ⟨p, e, -⟩ <;> cases h.symm.trans e
      · exact ⟨_, rfl⟩
      · exact ⟨_, rfl⟩

theorem stepLatched_of_fault {s : State} {f : Fault} (h : step s = .fault f) : stepLatched s = haltWith f s := by
  rw [stepLatched, h]

theorem stepLatched_of_halted {s : State} {k : FaultKind} (h : s.latch = some k) : stepLatched s = s := by
  rw [stepLatched, step_of_halted h]

/-- No host move reaches the latch. -/
theorem act_host_latch (h : HostMove) (s : State) : (act (.host h) s).latch = s.latch := by
  rcases act_host_cases h s with e | e
  · cases hc : s.cfg.collaborators with
    | false => cases (runMove_closed hc h).symm.trans e
    | true => exact (runMove_next hc e).1
  · rw [e]

theorem act_latch_of_halted {s : State} {k : FaultKind} (h : s.latch = some k) (e : Event) :
    (act e s).latch = some k := by
  cases e with
  | cpu => rw [act, stepLatched_of_halted h, h]
  | host m => rw [act_host_latch, h]

theorem foldl_act_latch_of_halted {s : State} {k : FaultKind} (h : s.latch = some k) (events : List Event) :
    (events.foldl (fun t e => act e t) s).latch = some k := by
  induction events generalizing s with
  | nil => exact h
  | cons e es ih => exact ih (act_latch_of_halted h e)

/-- Settles O7: a step's fault has a kind, and no event reaches a latch that holds one. -/
theorem faultsLatchAndHaltForGood : Obligations.FaultsLatchAndHaltForGood := by
  unfold Obligations.FaultsLatchAndHaltForGood
  refine fun s => ⟨fun f h => ?_, fun k hk => ⟨step_of_halted hk, foldl_act_latch_of_halted hk⟩⟩
  obtain ⟨k, hk⟩ := step_fault_kind h
  exact ⟨k, hk, by rw [stepLatched_of_fault h, haltWith, hk]; rfl⟩

end Sys2Proof.Machine
end

section
/-! SUPPORT. Setting a flag before an operation or after it: addressing and stores look at no flag, and `B`, `D`, `I`
steer no operation. -/

namespace Sys2Proof.Machine

/-! ### Any flag -/

theorem resolve_setFlag (o : Operand) (f : FlagName) (e : Bool) (s : State) :
    resolve o (setFlag f e s) = resolve o s := by
  cases f <;> exact resolve_withFlags ..

theorem loadOperand_setFlag (d : Descriptor) (f : FlagName) (e : Bool) (s : State) :
    loadOperand d (setFlag f e s) = loadOperand d s := by
  cases f <;> cases d <;> rfl

theorem operandValue_setFlag (o : Operand) (f : FlagName) (e : Bool) (s : State) :
    operandValue o (setFlag f e s) = operandValue o s := by
  cases f <;> exact operandValue_withFlags ..

theorem operandAddress_setFlag (o : Operand) (f : FlagName) (e : Bool) (s : State) :
    operandAddress o (setFlag f e s) = operandAddress o s := by
  rw [operandAddress, resolve_setFlag, operandAddress]

theorem fetchInstr_setFlag (f : FlagName) (e : Bool) (s : State) : fetchInstr (setFlag f e s) = fetchInstr s := by
  cases f <;> rfl

theorem commit_setFlag (r : Option Addr) (n : Nat) (f : FlagName) (e : Bool) (s : State) :
    commit r n (setFlag f e s) = setFlag f e (commit r n s) := by
  cases f <;> rfl

theorem memWrite_setFlag (p : Addr) (v : Byte) (f : FlagName) (e : Bool) (s : State) :
    memWrite p v (setFlag f e s) = mapNext (setFlag f e) (memWrite p v s) := by
  unfold memWrite
  cases cellOf p with
  | none => rfl
  | some k => cases f <;> rfl

theorem storeResult_setFlag (d : Descriptor) (v : Byte) (f : FlagName) (e : Bool) (s : State) :
    storeResult d v (setFlag f e s) = mapNext (setFlag f e) (storeResult d v s) := by
  cases d with
  | acc => cases f <;> rfl
  | addr ea => exact memWrite_setFlag ea v f e s
  | _ => rfl

/-- A reading instruction passes the flag on when its effect does. -/
theorem readInstr_setFlag {f : FlagName} {e : Bool} {g g' : Byte → State} (hg : ∀ m, g' m = setFlag f e (g m))
    (o : Operand) (s : State) : readInstr o g' (setFlag f e s) = mapNext (setFlag f e) (readInstr o g s) := by
  simp only [readInstr, operandValue_setFlag, mapNext_andThen, hg, commit_setFlag]
  rfl

theorem storeInstr_setFlag (o : Operand) (v : Byte) (f : FlagName) (e : Bool) (s : State) :
    storeInstr o v (setFlag f e s) = mapNext (setFlag f e) (storeInstr o v s) := by
  simp only [storeInstr, resolve_setFlag, storeResult_setFlag, mapNext, andThen_assoc, andThen_next, commit_setFlag]

/-- A modifying instruction passes the flag on when its flags do. -/
theorem modifyInstr_setFlag {f : FlagName} {e : Bool} {fl fl' : Byte → Flags}
    (hfl : ∀ m t, (setFlag f e t).withFlags (fl' m) = setFlag f e (t.withFlags (fl m))) (o : Operand) (g : Byte → Byte)
    (s : State) : modifyInstr o g fl' (setFlag f e s) = mapNext (setFlag f e) (modifyInstr o g fl s) := by
  simp only [modifyInstr, resolve_setFlag, loadOperand_setFlag, storeResult_setFlag, mapNext, andThen_assoc, andThen_next,
    hfl, commit_setFlag]

theorem opJmp_setFlag (o : Operand) (f : FlagName) (e : Bool) (s : State) :
    opJmp o (setFlag f e s) = mapNext (setFlag f e) (opJmp o s) := by
  simp only [opJmp, operandAddress_setFlag, mapNext_andThen, commit_setFlag]
  rfl

theorem pushWord_setFlag (w : Addr) (f : FlagName) (e : Bool) (s : State) :
    pushWord w (setFlag f e s) = mapNext (setFlag f e) (pushWord w s) := by
  rw [pushWord_eq, pushWord_eq]
  cases f <;> rfl

theorem opJsr_setFlag (o : Operand) (f : FlagName) (e : Bool) (s : State) :
    opJsr o (setFlag f e s) = mapNext (setFlag f e) (opJsr o s) := by
  simp only [opJsr, operandAddress_setFlag, setFlag_pc, pushWord_setFlag, mapNext, andThen_assoc, andThen_next, commit_setFlag]

theorem returnTo_setFlag (f : FlagName) (e : Bool) (s : State) :
    returnTo (setFlag f e s) = mapNext (setFlag f e) (returnTo s) := by
  rw [returnTo_eq, returnTo_eq]
  cases f <;> rfl

/-! ### `B`, `D` and `I` -/

/-- A pulled status byte overwrites every flag but `B`. -/
theorem opPlp_setFlag {f : FlagName} (hf : f ≠ .b) (e : Bool) (s : State) : opPlp (setFlag f e s) = opPlp s := by
  rw [opPlp_eq, opPlp_eq]
  cases f
  case b => exact absurd rfl hf
  all_goals rfl

theorem opRti_setFlag {f : FlagName} (hf : f ≠ .b) (e : Bool) (s : State) : opRti (setFlag f e s) = opRti s := by
  rw [opRti_eq, opRti_eq]
  cases f
  case b => exact absurd rfl hf
  all_goals rfl

/-- Executing with `B`, `D` or `I` set to any value is executing as before and setting it then: PHP, PLP and RTI apart for
`D` and `I`, and apart from the instructions that write the flag itself. -/
theorem execOp_setFlag {f : FlagName} {m : Mnemonic} (hf : f = .b ∨ f = .d ∨ f = .i)
    (status : f ≠ .b → m ∉ [.php, .plp, .rti]) (decimal : f = .d → m ∉ [.cld, .sed])
    (interrupt : f = .i → m ∉ [.cli, .sei]) (o : Operand) (e : Bool) (s : State) :
    execOp m o (setFlag f e s) = mapNext (setFlag f e) (execOp m o s) := by
  cases m with
  | ora | and | eor | bit | adc | sbc | cmp | cpx | cpy | lda | ldx | ldy =>
    rcases hf with rfl | rfl | rfl <;> exact readInstr_setFlag (fun _ => by rfl) o s
  | sta | stx | sty => rcases hf with rfl | rfl | rfl <;> exact storeInstr_setFlag ..
  | asl | lsr | rol | ror | inc | dec =>
    rcases hf with rfl | rfl | rfl <;> exact modifyInstr_setFlag (fun _ _ => rfl) o _ s
  | bpl | bmi | bvc | bvs | bcc | bcs | bne | beq =>
    cases o with
    | rel off => rcases hf with rfl | rfl | rfl <;> rfl
    | _ => rfl
  | inx | dex | iny | dey | tax | txa | tay | tya | tsx | txs | clc | sec | clv | nop | brk =>
    rcases hf with rfl | rfl | rfl <;> rfl
  | cld | sed =>
    rcases hf with rfl | rfl | rfl
    · rfl
    · simp at decimal
    · rfl
  | cli | sei =>
    rcases hf with rfl | rfl | rfl
    · rfl
    · rfl
    · simp at interrupt
  | pha | pla =>
    simp only [execOp, opPha_eq, opPla_eq]
    rcases hf with rfl | rfl | rfl <;> rfl
  | php | plp =>
    obtain rfl : f = .b := Classical.byContradiction fun h => by simpa using status h
    simp only [execOp, opPhp_eq, opPlp_eq]
    rfl
  | rti =>
    obtain rfl : f = .b := Classical.byContradiction fun h => by simpa using status h
    simp only [execOp, opRti_eq, returnTo_eq]
    rfl
  | jmp => exact opJmp_setFlag ..
  | jsr => exact opJsr_setFlag ..
  | rts => exact returnTo_setFlag ..

end Sys2Proof.Machine
end

section
/-! PROOF of O14, O15, O16: the three flags that steer nothing. -/

namespace Sys2Proof.Machine

/-- Settles O14: neither the fetch nor the execution looks at `B` or writes it. -/
theorem breakFlagIsInert : Obligations.BreakFlagIsInert := by
  unfold Obligations.BreakFlagIsInert
  intro s e
  cases hl : s.latch with
  | some k =>
    rw [step_of_halted hl, step_of_halted ((setFlag_latch ..).trans hl)]
    rfl
  | none =>
    have inert (i : Instr) : exec i (setFlag .b e s) = mapNext (setFlag .b e) (exec i s) := by
      rw [exec_eq_execOp, exec_eq_execOp]
      exact execOp_setFlag (.inl rfl) (absurd rfl) nofun nofun ..
    rw [step_of_latch hl, step_of_latch ((setFlag_latch ..).trans hl), fetchInstr_setFlag, mapNext_andThen]
    simp only [inert]

/-- Settles O15: the writers of `D` overwrite it whatever it was, and every other instruction but PHP passes it on. -/
theorem decimalModeSteersNothing : Obligations.DecimalModeSteersNothing := by
  unfold Obligations.DecimalModeSteersNothing
  intro i s e
  rw [exec_eq_execOp, exec_eq_execOp]
  constructor
  · intro hm
    exact execOp_setFlag (.inr (.inl rfl)) (fun _ h => hm (List.subset_def.1 (by decide) h))
      (fun _ h => hm (List.subset_def.1 (by decide) h)) nofun ..
  · intro hm
    simp only [List.mem_cons, List.not_mem_nil, or_false] at hm
    rcases hm with hm | hm | hm | hm <;> rw [hm]
    · exact opPlp_setFlag (f := .d) nofun e s
    · exact opRti_setFlag (f := .d) nofun e s
    · rfl
    · rfl

/-- Settles O16: the writers of `I` overwrite it whatever it was, and every other instruction but PHP passes it on. -/
theorem interruptDisableSteersNothing : Obligations.InterruptDisableSteersNothing := by
  unfold Obligations.InterruptDisableSteersNothing
  intro i s e
  rw [exec_eq_execOp, exec_eq_execOp]
  constructor
  · intro hm
    exact execOp_setFlag (.inr (.inr rfl)) (fun _ h => hm (List.subset_def.1 (by decide) h)) nofun
      (fun _ h => hm (List.subset_def.1 (by decide) h)) ..
  · intro hm
    simp only [List.mem_cons, List.not_mem_nil, or_false] at hm
    rcases hm with hm | hm | hm | hm <;> rw [hm]
    · exact opPlp_setFlag (f := .i) nofun e s
    · exact opRti_setFlag (f := .i) nofun e s
    · rfl
    · rfl

end Sys2Proof.Machine
end

section
/-! PROOF of O18: the frame of the flags, column by column of the matrix of R24. -/

namespace Sys2Proof.Machine

/-- The matrix of R24 with the extension's rows, for a mnemonic: the flags before and after. -/
def FlagFrame (m : Mnemonic) (f g : Flags) : Prop :=
  (g.c ≠ f.c → m ∈ [.adc, .sbc, .cmp, .cpx, .cpy, .asl, .lsr, .rol, .ror, .plp, .rti, .clc, .sec]) ∧
  (g.z ≠ f.z ∨ g.n ≠ f.n → m ∈
    [.ora, .and, .eor, .bit, .adc, .sbc, .cmp, .cpx, .cpy, .asl, .lsr, .rol, .ror, .inc, .dec, .inx, .dex, .iny, .dey,
     .lda, .ldx, .ldy, .tax, .txa, .tay, .tya, .tsx, .pla, .plp, .rti]) ∧
  (g.i ≠ f.i → m ∈ [.plp, .rti, .cli, .sei]) ∧
  (g.d ≠ f.d → m ∈ [.plp, .rti, .cld, .sed]) ∧
  g.b = f.b ∧
  (g.v ≠ f.v → m ∈ [.adc, .sbc, .bit, .plp, .rti, .clv]) ∧
  (g.v = true → f.v = true ∨ m ∈ [.adc, .sbc, .bit, .plp, .rti])

/-- Flags left alone meet the frame of every mnemonic. -/
theorem flagFrame_of_eq {m : Mnemonic} {f g : Flags} (h : g = f) : FlagFrame m f g := by
  subst h
  simp +contextual [FlagFrame]

theorem storeInstr_flags {o : Operand} {v : Byte} {s t : State} (h : storeInstr o v s = .next t) : t.flags = s.flags := by
  obtain ⟨d, u, -, hu, rfl⟩ := storeInstr_next.1 h
  rcases storeResult_next hu with ⟨-, rfl⟩ | ⟨ea, k, -, -, rfl⟩
  · rfl
  · rfl

theorem modifyInstr_flags {o : Operand} {g : Byte → Byte} {fl : Byte → Flags} {s t : State}
    (h : modifyInstr o g fl s = .next t) : ∃ m, t.flags = fl m := by
  obtain ⟨d, m, u, -, -, -, rfl⟩ := modifyInstr_next.1 h
  exact ⟨m, rfl⟩

/-- The flag frame of every shared operation, at any operand. -/
theorem execOp_flagFrame {m : Mnemonic} {o : Operand} {s t : State} (h : execOp m o s = .next t) :
    FlagFrame m s.flags t.flags := by
  cases m with
  | ora | and | eor | bit | adc | sbc | cmp | cpx | cpy | lda | ldx | ldy =>
    obtain ⟨v, -, rfl⟩ := readInstr_next.1 h
    simp +contextual [FlagFrame, addToA]
  | asl | lsr | rol | ror | inc | dec =>
    obtain ⟨v, hv⟩ := modifyInstr_flags h
    simp +contextual [FlagFrame, hv]
  | sta | stx | sty => exact flagFrame_of_eq (storeInstr_flags h)
  | bpl | bmi | bvc | bvs | bcc | bcs | bne | beq =>
    cases o with
    | rel off => cases h; exact flagFrame_of_eq rfl
    | _ => cases h
  | txs | nop =>
    cases h
    exact flagFrame_of_eq rfl
  | inx | dex | iny | dey | tax | txa | tay | tya | tsx | clc | sec | cli | sei | clv | cld | sed =>
    cases h
    simp +contextual [FlagFrame]
  | pha | php | rts =>
    simp only [execOp, opPha_eq, opPhp_eq, opRts, returnTo_eq] at h
    cases h
    exact flagFrame_of_eq rfl
  | pla | plp | rti =>
    simp only [execOp, opPla_eq, opPlp_eq, opRti_eq, returnTo_eq] at h
    cases h
    simp +contextual [FlagFrame]
  | jmp =>
    obtain ⟨ea, -, rfl⟩ := opJmp_next.1 h
    exact flagFrame_of_eq rfl
  | jsr =>
    obtain ⟨ea, u, -, hu, rfl⟩ := opJsr_next.1 h
    obtain ⟨-, -, -, hflags, -⟩ := pushWord_next hu
    exact flagFrame_of_eq hflags
  | brk => cases h

/-- Settles O18: the frame of the shared operation of the instruction's mnemonic. -/
theorem flagsChangeOnlyAsTheMatrixSays : Obligations.FlagsChangeOnlyAsTheMatrixSays := by
  unfold Obligations.FlagsChangeOnlyAsTheMatrixSays
  intro i s t h
  rw [exec_eq_execOp] at h
  exact execOp_flagFrame h

end Sys2Proof.Machine
end

section
/-! PROOF of O46: bytes pushed pop back in reverse, because up to 256 pushes go to different slots. -/

namespace Sys2Proof.Machine

/-- The slots of one stack page are different cells. -/
theorem stackCell_inj {c : Config} {p q : Byte} (h : stackCell c p = stackCell c q) : p = q := by
  apply BitVec.eq_of_toNat_eq
  have hp := p.isLt
  have hq := q.isLt
  unfold stackCell at h
  omega

/-- The state that pushing one byte leaves. -/
def afterPush (v : Byte) (s : State) : State :=
  (s.withMem (s.mem.write (stackCell s.cfg s.sp) v)).withSP (s.sp - 1)

theorem pushAll_cons (v : Byte) (vs : List Byte) (s : State) : pushAll (v :: vs) s = pushAll vs (afterPush v s) := by
  rw [pushAll, push_eq, andThen_next, afterPush]

theorem afterPush_inv {s : State} (wf : Inv s) (v : Byte) : Inv (afterPush v s) :=
  wf_write wf (isCell_stackCell ..)

/-- What pushing a list leaves: `SP` lower by its length, and other bytes in the slots pushed to alone. -/
theorem pushAll_next (bytes : List Byte) {s : State} (wf : Inv s) :
    ∃ m : Memory, pushAll bytes s = .next ((s.withMem m).withSP (s.sp - BitVec.ofNat 8 bytes.length)) ∧
      ∀ p : Byte, (∀ j < bytes.length, p ≠ s.sp - BitVec.ofNat 8 j) →
        m.read (stackCell s.cfg p) = s.mem.read (stackCell s.cfg p) := by
  induction bytes generalizing s with
  | nil => exact ⟨s.mem, by rw [pushAll, List.length_nil, BitVec.sub_zero]; rfl, fun _ _ => rfl⟩
  | cons v vs ih =>
    obtain ⟨m, e, frame⟩ := ih (afterPush_inv wf v)
    have lower (j : Nat) : (afterPush v s).sp - BitVec.ofNat 8 j = s.sp - BitVec.ofNat 8 (j + 1) := by
      rw [BitVec.ofNat_add, BitVec.add_comm, ← BitVec.sub_sub]
      rfl
    refine ⟨m, ?_, fun p hp => ?_⟩
    · rw [pushAll_cons, e, List.length_cons, ← lower]
      rfl
    · have first : p ≠ s.sp := by simpa using hp 0 (by simp)
      calc m.read (stackCell s.cfg p)
        _ = (afterPush v s).mem.read (stackCell s.cfg p) :=
          frame p fun j hj => (lower j).symm ▸ hp (j + 1) (by simpa using hj)
        _ = s.mem.read (stackCell s.cfg p) := read_write_other wf fun e => first (stackCell_inj e)

/-- Popping one more byte is popping it last. -/
theorem popMany_succ (n : Nat) (s : State) :
    popMany (n + 1) s = andThen (popMany n s) fun q => andThen (pop q.2) fun p => .next (q.1 ++ [p.1], p.2) := by
  induction n generalizing s with
  | zero => rfl
  | succ n ih =>
    rw [popMany, pop_eq, andThen_next, ih, popMany, pop_eq, andThen_next]
    simp only [andThen_assoc, andThen_next]
    rfl

/-- Popping as many bytes as were pushed gives them back, the first pushed last, and moves `SP` back. -/
theorem popMany_pushAll {bytes : List Byte} {s t : State} (wf : Inv s) (len : bytes.length ≤ 256)
    (h : pushAll bytes s = .next t) : popMany bytes.length t = .next (bytes.reverse, t.withSP s.sp) := by
  induction bytes generalizing s with
  | nil =>
    cases h
    rfl
  | cons v vs ih =>
    rw [List.length_cons] at len
    rw [pushAll_cons] at h
    have bottom : t.mem.read (stackCell t.cfg s.sp) = v := by
      obtain ⟨m, e, frame⟩ := pushAll_next vs (afterPush_inv wf v)
      cases e.symm.trans h
      have apart : ∀ j < vs.length, s.sp ≠ s.sp - 1 - BitVec.ofNat 8 j := fun j hj => by bv_omega
      exact (frame s.sp apart).trans (read_write_same wf)
    have back : s.sp - 1 + 1 = s.sp := BitVec.sub_add_cancel ..
    rw [List.length_cons, popMany_succ, ih (afterPush_inv wf v) (by omega) h, andThen_next, pop_eq, List.reverse_cons]
    simp only [afterPush, withSP_sp, withSP_mem, withSP_cfg, back, bottom, andThen_next]
    rfl

/-- Settles O46: the pushes complete, and the pops undo them. -/
theorem pushesPopBackInReverse : Obligations.PushesPopBackInReverse := by
  unfold Obligations.PushesPopBackInReverse
  intro bytes s wf len
  obtain ⟨m, e, -⟩ := pushAll_next bytes wf
  exact ⟨_, _, e, popMany_pushAll wf len e, rfl, rfl, rfl, rfl, rfl, rfl, rfl⟩

end Sys2Proof.Machine
end

section
/-! PROOF of O11: a step keeps the storage canonical. -/

namespace Sys2Proof.Machine

/-- Settles O11: every shared operation keeps the canonical form, as `execOp_inv` says case by case. -/
theorem stepKeepsTheStorageCanonical : Obligations.StepKeepsTheStorageCanonical := by
  unfold Obligations.StepKeepsTheStorageCanonical
  exact fun s t wf h => step_inv wf h

end Sys2Proof.Machine
end

section
/-! PROOF of O19: the frame of memory, by the addresses an instruction stores to. -/

namespace Sys2Proof.Machine

/-- A result stored where an operand resolves to leaves every address apart from that one alone. -/
theorem storeResult_frame {o : Operand} {d : Descriptor} {v : Byte} {s u : State} {p : Addr} (wf : Inv s)
    (hd : resolve o s = .next d) (hu : storeResult d v s = .next u)
    (apart : ∀ ea, resolve o s = .next (.addr ea) → Apart p ea) : memRead p u = memRead p s := by
  rcases storeResult_next hu with ⟨-, rfl⟩ | ⟨ea, k, rfl, hk, rfl⟩
  · rfl
  · exact memRead_write_apart wf hk rfl (apart ea hd)

/-- A byte stored in a stack slot leaves every address apart from the slot alone. -/
theorem memRead_write_stack {s t : State} {p : Addr} {q v : Byte} (wf : Inv s)
    (ht : t.mem = s.mem.write (stackCell s.cfg q) v) (apart : Apart p (stackAddr s.cfg q)) :
    memRead p t = memRead p s :=
  memRead_write_apart wf (cellOf_stackAddr s.cfg q) ht apart

theorem pushWord_frame {w : Addr} {s u : State} {p : Addr} (wf : Inv s) (hu : pushWord w s = .next u)
    (high : Apart p (stackAddr s.cfg s.sp)) (low : Apart p (stackAddr s.cfg (s.sp - 1))) :
    memRead p u = memRead p s := by
  cases (pushWord_eq w s).symm.trans hu
  have between : Inv (s.withMem (s.mem.write (stackCell s.cfg s.sp) (highByte w))) := wf_write wf (isCell_stackCell ..)
  exact (memRead_write_stack between rfl low).trans (memRead_write_stack wf rfl high)

/-- Every shared operation leaves an address alone that is apart from its effective address, where it stores there, and
from its stack slots, where it pushes. -/
theorem execOp_frame {m : Mnemonic} {o : Operand} {s t : State} {p : Addr} (wf : Inv s) (h : execOp m o s = .next t)
    (stored : m ∈ [.sta, .stx, .sty, .inc, .dec, .asl, .lsr, .rol, .ror] →
      ∀ ea, resolve o s = .next (.addr ea) → Apart p ea)
    (pushed : m ∈ [.pha, .php, .jsr] → Apart p (stackAddr s.cfg s.sp))
    (called : m = .jsr → Apart p (stackAddr s.cfg (s.sp - 1))) : memRead p t = memRead p s := by
  cases m with
  | ora | and | eor | bit | adc | sbc | cmp | cpx | cpy | lda | ldx | ldy =>
    obtain ⟨v, -, rfl⟩ := readInstr_next.1 h
    rfl
  | sta | stx | sty =>
    obtain ⟨d, u, hd, hu, rfl⟩ := storeInstr_next.1 h
    exact (storeResult_frame wf hd hu (stored (by decide)) : memRead p u = _)
  | asl | lsr | rol | ror | inc | dec =>
    obtain ⟨d, v, u, hd, -, hu, rfl⟩ := modifyInstr_next.1 h
    exact (storeResult_frame wf hd hu (stored (by decide)) : memRead p u = _)
  | bpl | bmi | bvc | bvs | bcc | bcs | bne | beq =>
    cases o with
    | rel off => cases h; rfl
    | _ => cases h
  | inx | dex | iny | dey | tax | txa | tay | tya | tsx | txs | clc | sec | cli | sei | clv | cld | sed | nop =>
    cases h
    rfl
  | pla | plp | rts | rti =>
    simp only [execOp, opPla_eq, opPlp_eq, opRts, opRti_eq, returnTo_eq] at h
    cases h
    rfl
  | pha | php =>
    simp only [execOp, opPha_eq, opPhp_eq] at h
    cases h
    exact memRead_write_stack wf rfl (pushed (by decide))
  | jmp =>
    obtain ⟨ea, -, rfl⟩ := opJmp_next.1 h
    rfl
  | jsr =>
    obtain ⟨ea, u, -, hu, rfl⟩ := opJsr_next.1 h
    exact (pushWord_frame wf hu (pushed (by decide)) (called rfl) : memRead p u = _)
  | brk => cases h

theorem mem_storedAddrs_of_resolve {i : Instr} {s : State} {ea : Addr}
    (hm : i.mnemonic ∈ [.sta, .stx, .sty, .inc, .dec, .asl, .lsr, .rol, .ror])
    (h : resolve i.operand s = .next (.addr ea)) : ea ∈ storedAddrs i s := by
  unfold storedAddrs
  split
  · rw [h]
    exact List.mem_singleton_self ea
  all_goals simp_all

theorem mem_storedAddrs_of_push {i : Instr} {s : State} (hm : i.mnemonic ∈ [.pha, .php, .jsr]) :
    stackAddr s.cfg s.sp ∈ storedAddrs i s := by
  simp only [List.mem_cons, List.not_mem_nil, or_false] at hm
  rcases hm with hm | hm | hm <;> simp [storedAddrs, hm]

/-- Settles O19: the addresses `storedAddrs` lists are the ones the frame of the shared operations speaks of. -/
theorem memoryChangesOnlyWhereTheInstructionStores : Obligations.MemoryChangesOnlyWhereTheInstructionStores := by
  unfold Obligations.MemoryChangesOnlyWhereTheInstructionStores
  intro i s t wf h p apart
  rw [exec_eq_execOp] at h
  exact execOp_frame wf h (fun hm ea he => apart ea (mem_storedAddrs_of_resolve hm he))
    (fun hm => apart _ (mem_storedAddrs_of_push hm)) (fun hm => apart _ (by simp [storedAddrs, hm]))

end Sys2Proof.Machine
end

section
/-! SUPPORT. Storing and modifying instructions at an address with a cell, and the shifts as moves of bits. -/

namespace Sys2Proof.Machine

/-- A storing instruction at an address with a cell, as a record. -/
theorem storeInstr_of_cell {o : Operand} {v : Byte} {s : State} {ea : Addr} {k : Nat}
    (h : resolve o s = .next (.addr ea)) (hk : cellOf ea = some k) :
    storeInstr o v s = .next { s with mem := s.mem.write k v, pc := s.pc + BitVec.ofNat 16 o.len } :=
  storeInstr_next.2 ⟨_, _, h, memWrite_of_cell hk v s, rfl⟩

/-- A read-modify-write instruction at an address with a cell, as a record. -/
theorem modifyInstr_of_cell {o : Operand} {g : Byte → Byte} {fl : Byte → Flags} {s : State} {ea : Addr} {k : Nat}
    (h : resolve o s = .next (.addr ea)) (hk : cellOf ea = some k) :
    modifyInstr o g fl s = .next { s with
      mem := s.mem.write k (g (s.mem.read k))
      flags := fl (s.mem.read k)
      pc := s.pc + BitVec.ofNat 16 o.len } :=
  modifyInstr_next.2 ⟨_, _, _, h, memRead_of_cell hk s, memWrite_of_cell hk _ s, rfl⟩

theorem byte_add_one (b : Byte) : b + 1 = BitVec.ofNat 8 (b.toNat + 1) := by bv_omega

theorem byte_sub_one (b : Byte) : b - 1 = BitVec.ofNat 8 (b.toNat + 255) := by bv_omega

theorem afterShift_eq_zeroNegative (out : Byte × Bool) (f : Flags) :
    f.afterShift out = zeroNegative out.1 { f with c := out.2 } :=
  setZN_eq_zeroNegative ..

theorem ofNat_double (v : Byte) : BitVec.ofNat 8 (v.toNat * 2) = v <<< 1 := by
  apply BitVec.eq_of_toNat_eq
  rw [BitVec.toNat_ofNat, BitVec.toNat_shiftLeft, Nat.shiftLeft_eq]

theorem ofNat_half (v : Byte) : BitVec.ofNat 8 (v.toNat / 2) = v >>> 1 := by
  apply BitVec.eq_of_toNat_eq
  have := v.isLt
  rw [BitVec.toNat_ofNat, BitVec.toNat_ushiftRight, Nat.shiftRight_eq_div_pow]
  omega

theorem shiftSpec_asl (v : Byte) (c : Bool) : shiftSpec .asl v c = some (asl v) := by
  rw [asl, ofNat_double, shiftSpec]

theorem shiftSpec_lsr (v : Byte) (c : Bool) : shiftSpec .lsr v c = some (lsr v) := by
  rw [lsr, ofNat_half, shiftSpec]

/-- The bit that enters a rotate takes a place the shift has cleared, so that adding it is setting it. -/
theorem shiftSpec_rol (v : Byte) (c : Bool) : shiftSpec .rol v c = some (rol v c) := by
  have clear : v <<< 1 &&& (if c then 0x01#8 else 0x00#8) = 0#8 := by decide +revert
  rw [rol, BitVec.ofNat_add, ofNat_double, shiftSpec, ← BitVec.add_eq_or_of_and_eq_zero _ _ clear]
  cases c <;> rfl

theorem shiftSpec_ror (v : Byte) (c : Bool) : shiftSpec .ror v c = some (ror v c) := by
  have clear : v >>> 1 &&& (if c then 0x80#8 else 0x00#8) = 0#8 := by decide +revert
  rw [ror, BitVec.ofNat_add, ofNat_half, shiftSpec, ← BitVec.add_eq_or_of_and_eq_zero _ _ clear]
  cases c <;> rfl

end Sys2Proof.Machine
end

section
/-! PROOF of O26, O28, O31: the instructions that write the byte at an effective address. -/

namespace Sys2Proof.Machine

/-- The four shifts at an operand are the read-modify-write of their move of bits. -/
theorem execOp_shift_of_cell {m : Mnemonic} {o : Operand} {s : State} {ea : Addr} {k : Nat} {out : Byte × Bool}
    (h : resolve o s = .next (.addr ea)) (hk : cellOf ea = some k)
    (hout : shiftSpec m (s.mem.read k) s.flags.c = some out) :
    execOp m o s = .next { s with
      mem := s.mem.write k out.1, flags := s.flags.afterShift out, pc := s.pc + BitVec.ofNat 16 o.len } := by
  cases m with
  | asl | lsr | rol | ror =>
    simp only [shiftSpec_asl, shiftSpec_lsr, shiftSpec_rol, shiftSpec_ror, Option.some.injEq] at hout
    subst hout
    exact modifyInstr_of_cell h hk
  | _ => cases hout

/-- Settles O26: the shared operation of each shift, its flags in the spec's words. -/
theorem memoryShiftsCompute : Obligations.MemoryShiftsCompute := by
  unfold Obligations.MemoryShiftsCompute
  intro i s ea k r c h hk hout
  rw [exec_eq_execOp, execOp_shift_of_cell h hk hout, afterShift_eq_zeroNegative]
  rfl

/-- Settles O28: the read-modify-write of one more, or one less. -/
theorem memoryIncrementsAndDecrementsCompute : Obligations.MemoryIncrementsAndDecrementsCompute := by
  unfold Obligations.MemoryIncrementsAndDecrementsCompute
  intro i s ea k h hk
  refine ⟨fun hm => ?_, fun hm => ?_⟩
  · simp only [exec_eq_execOp, hm, ← byte_add_one, ← setZN_eq_zeroNegative]
    exact modifyInstr_of_cell h hk
  · simp only [exec_eq_execOp, hm, ← byte_sub_one, ← setZN_eq_zeroNegative]
    exact modifyInstr_of_cell h hk

/-- Settles O31: the formats of the stores resolve to an address, and the shared operation writes its cell. -/
theorem storesCompute : Obligations.StoresCompute := by
  unfold Obligations.StoresCompute
  intro i s reg hreg
  have hf : i.operand.format ∈ addressFormats := by
    have hfm := format_mem_formats i
    rcases hreg with ⟨hm, -⟩ | ⟨hm, -⟩ | ⟨hm, -⟩ <;> rw [hm] at hfm <;> exact List.subset_def.1 (by decide) hfm
  obtain ⟨ea, h, -⟩ := resolve_address hf s
  refine ⟨ea, h, fun k hk => ?_⟩
  rw [exec_eq_execOp]
  rcases hreg with ⟨hm, rfl⟩ | ⟨hm, rfl⟩ | ⟨hm, rfl⟩ <;> rw [hm] <;> exact storeInstr_of_cell h hk

end Sys2Proof.Machine
end

section
/-! PROOF of O48: the region map. -/

namespace Sys2Proof.Machine

/-- Settles O48: each region's address lies above the bounds of the regions before it. -/
theorem routeFollowsTheRegionMap : Obligations.RouteFollowsTheRegionMap := by
  unfold Obligations.RouteFollowsTheRegionMap
  intro p
  refine ⟨fun hi => ?_, fun lo hi => ?_, fun lo hi => ?_, fun lo hi => ?_, fun lo => ?_⟩
  · rw [route, if_pos hi]
  · rw [route, if_neg (by omega), if_pos hi]
  · rw [route, if_neg (by omega), if_neg (by omega), if_pos hi]
  · rw [route, if_neg (by omega), if_neg (by omega), if_neg (by omega), if_pos hi]
  · rw [route, if_neg (by omega), if_neg (by omega), if_neg (by omega), if_neg (by omega)]

end Sys2Proof.Machine
end

section
/-! SUPPORT. Addresses that share a cell, and words and pointers read from two bytes. -/

namespace Sys2Proof.Machine

/-- Two addresses mirror each other: both in the RAM mirrors, or both in the mirrors of the first peripheral block. -/
def Mirrored (p q : Addr) : Prop :=
  (p.toNat < 0x2000 ∧ q.toNat < 0x2000 ∧ p.toNat % 0x0800 = q.toNat % 0x0800) ∨
    (0x2000 ≤ p.toNat ∧ p.toNat ≤ 0x3FFF ∧ 0x2000 ≤ q.toNat ∧ q.toNat ≤ 0x3FFF ∧ p.toNat % 8 = q.toNat % 8)

theorem cellOf_eq_of_mirrored {p q : Addr} (h : Mirrored p q) : cellOf q = cellOf p := by
  rw [cellOf_eq, cellOf_eq]
  rcases h with ⟨hp, hq, e⟩ | ⟨lo, hi, lo', hi', e⟩
  · rw [if_pos (by omega), if_pos (by omega), e]
  · rw [if_neg (by omega), if_pos hi', if_neg (by omega), if_pos hi, e]

/-- Addresses of one cell are the same, or mirrors. -/
theorem eq_or_mirrored_of_cellOf_eq {p q : Addr} {k : Nat} (hp : cellOf p = some k) (hq : cellOf q = some k) :
    p = q ∨ Mirrored p q := by
  rw [cellOf_eq] at hp hq
  rw [← BitVec.toNat_inj, Mirrored]
  repeat' split at hp
  all_goals simp only [Option.some.injEq, reduceCtorEq] at hp
  all_goals repeat' split at hq
  all_goals simp only [Option.some.injEq, reduceCtorEq] at hq
  all_goals omega

/-- Two addresses are apart, the same, or mirrors of each other. -/
theorem apart_or_eq_or_mirrored {p q : Addr} (hf : forbidden p = false) : Apart p q ∨ p = q ∨ Mirrored p q := by
  by_cases e : route p = route q
  · obtain ⟨k, hk⟩ := cellOf_isSome hf
    have hq : cellOf q = some k := by rw [cellOf, ← e]; exact hk
    exact .inr (eq_or_mirrored_of_cellOf_eq hk hq)
  · exact .inl e

/-- After a completed write, every address of the cell written reads the byte. -/
theorem memRead_memWrite_of_cellOf_eq {p q : Addr} {v : Byte} {s t : State} (wf : Inv s) (h : memWrite p v s = .next t)
    (e : cellOf q = cellOf p) : memRead q t = .next v := by
  rcases memWrite_cases p v s with ⟨k, hk, hw⟩ | ⟨-, hw⟩ <;> cases h.symm.trans hw
  rw [memRead_of_cell (e.trans hk)]
  exact congrArg _ (read_write_same wf)

theorem memWrite_completes_iff {p : Addr} {v : Byte} {s : State} :
    (∃ t, memWrite p v s = .next t) ↔ forbidden p = false := by
  constructor
  · rintro ⟨t, h⟩
    refine Bool.eq_false_iff.2 fun hf => ?_
    cases (memWrite_of_forbidden hf v s).symm.trans h
  · intro hf
    obtain ⟨k, hk⟩ := cellOf_isSome hf
    exact ⟨_, memWrite_of_cell hk v s⟩

end Sys2Proof.Machine
end

section
/-! PROOF of O47, O50: a byte written, its mirrors, and every other address. -/

namespace Sys2Proof.Machine

/-- Settles O47: mirrors have one cell, and only mirrors do. -/
theorem mirroredAddressesShareTheirByte : Obligations.MirroredAddressesShareTheirByte := by
  unfold Obligations.MirroredAddressesShareTheirByte
  refine ⟨fun p q v s t wf h => ⟨fun hp hq e => ?_, fun lo hi lo' hi' e => ?_⟩, fun p q => apart_or_eq_or_mirrored⟩
  · exact memRead_memWrite_of_cellOf_eq wf h (cellOf_eq_of_mirrored (.inl ⟨hp, hq, e.symm⟩))
  · exact memRead_memWrite_of_cellOf_eq wf h (cellOf_eq_of_mirrored (.inr ⟨lo, hi, lo', hi', e.symm⟩))

/-- Settles O50: a write replaces the byte of one cell. -/
theorem writesStoreOneByteAndReadsSeeIt : Obligations.WritesStoreOneByteAndReadsSeeIt := by
  unfold Obligations.WritesStoreOneByteAndReadsSeeIt
  intro p v s
  refine ⟨memWrite_completes_iff, fun wf t h => ⟨memRead_memWrite_of_cellOf_eq wf h rfl, ?_⟩⟩
  rcases memWrite_cases p v s with ⟨k, hk, e⟩ | ⟨-, e⟩ <;> cases h.symm.trans e
  exact ⟨fun q apart => memRead_write_apart wf hk rfl apart, rfl⟩

end Sys2Proof.Machine
end

section
/-! PROOF of O51: the program load. -/

namespace Sys2Proof.Machine

/-- Loading bytes puts each into its cell. -/
theorem read_load_at {bytes : List Byte} {j k : Nat} {v : Byte} {m : Memory} (wf : m.wf = true) (lo : 0x4020 ≤ j)
    (hi : j + bytes.length ≤ 0x10000) (hv : bytes[k]? = some v) : (Memory.load j bytes m).read (j + k) = v := by
  induction bytes generalizing j k m with
  | nil => cases hv
  | cons b bs ih =>
    rw [List.length_cons] at hi
    have hw : (m.write j b).wf = true := wf_write wf (isCell_cart lo (by omega))
    cases k with
    | zero =>
      obtain rfl : b = v := Option.some.inj hv
      calc (Memory.load (j + 1) bs (m.write j b)).read j
        _ = (m.write j b).read j := read_load_below hw (by omega) (by omega) (by omega)
        _ = b := read_write_same wf
    | succ k =>
      rw [Nat.add_comm k 1, ← Nat.add_assoc]
      exact ih hw (by omega) (by omega) hv

/-- Loading bytes into the cartridge leaves every cell above the last byte alone. -/
theorem read_load_above {bytes : List Byte} {j k : Nat} {m : Memory} (wf : m.wf = true) (lo : 0x4020 ≤ j)
    (hi : j + bytes.length ≤ 0x10000) (ge : j + bytes.length ≤ k) : (Memory.load j bytes m).read k = m.read k := by
  induction bytes generalizing j m with
  | nil => rfl
  | cons v vs ih =>
    rw [List.length_cons] at hi ge
    have hw : (m.write j v).wf = true := wf_write wf (isCell_cart lo (by omega))
    calc (Memory.load (j + 1) vs (m.write j v)).read k
      _ = (m.write j v).read k := ih hw (by omega) (by omega) (by omega)
      _ = m.read k := read_write_other wf (by omega)

/-- A cartridge address names its own cell. -/
theorem cellOf_cart {p : Addr} (h : 0x4020 ≤ p.toNat) : cellOf p = some p.toNat := by
  rw [cellOf_eq, if_neg (by omega), if_neg (by omega), if_neg (by omega), if_neg (by omega)]

/-- Settles O51: the loaded cells, the cells below and the cells above. -/
theorem programLoadFillsTheCartridge : Obligations.ProgramLoadFillsTheCartridge := by
  unfold Obligations.ProgramLoadFillsTheCartridge
  intro bytes s wf
  refine ⟨fun len => ⟨_, loadProgram_next.2 ⟨len, rfl⟩, rfl, fun k v hv => ?_, fun p out => ?_⟩, fun len => ?_⟩
  · have hk : k < bytes.length := (List.getElem?_eq_some_iff.1 hv).1
    have hp : (BitVec.ofNat 16 (0x4020 + k)).toNat = 0x4020 + k := by
      rw [BitVec.toNat_ofNat, Nat.mod_eq_of_lt (by omega)]
    rw [memRead_of_cell (cellOf_cart (by omega)), hp]
    exact congrArg _ (read_load_at wf (Nat.le_refl _) (by omega) hv)
  · refine memRead_congr_cell fun j hj => ?_
    rcases out with lt | ge
    · exact read_load_below wf (Nat.le_refl _) (by omega) ((cellOf_bounds hj).2.2.2 lt)
    · cases (cellOf_cart (by omega)).symm.trans hj
      exact read_load_above wf (Nat.le_refl _) (by omega) ge
  · exact if_pos len

end Sys2Proof.Machine
end

section
/-! PROOF of O53, O54: the two modes with a pointer in the zero page. -/

namespace Sys2Proof.Machine

theorem zext16_eq_ofNat (b : Byte) : zext16 b = BitVec.ofNat 16 b.toNat := by
  rw [← zext16_toNat, BitVec.ofNat_toNat, BitVec.setWidth_eq]

theorem memRead_zeroPage (b : Byte) (s : State) : memRead (BitVec.ofNat 16 b.toNat) s = .next (s.mem.read b.toNat) := by
  rw [← zext16_eq_ofNat, memRead_zext16]

/-- Settles O53: both bytes of the pointer are zero-page reads. -/
theorem indexedIndirectPointerStaysInTheZeroPage : Obligations.IndexedIndirectPointerStaysInTheZeroPage := by
  unfold Obligations.IndexedIndirectPointerStaysInTheZeroPage
  intro b s
  have low : (b.toNat + s.x.toNat) % 256 = (b + s.x).toNat := (BitVec.toNat_add b s.x).symm
  have high : ((b + s.x).toNat + 1) % 256 = (b + s.x + 1).toNat := (BitVec.toNat_add (b + s.x) 1).symm
  simp only [low, high]
  refine ⟨_, _, memRead_zeroPage .., memRead_zeroPage .., ?_⟩
  rw [resolve, readPair_zext16, andThen_next, joinBytes_eq_ofNat]

/-- Settles O54: both bytes of the pointer are zero-page reads, and `Y` is added to the word. -/
theorem indirectIndexedAddsYToTheZeroPagePointer : Obligations.IndirectIndexedAddsYToTheZeroPagePointer := by
  unfold Obligations.IndirectIndexedAddsYToTheZeroPagePointer
  intro b s
  have high : (b.toNat + 1) % 256 = (b + 1).toNat := (BitVec.toNat_add b 1).symm
  rw [high]
  refine ⟨_, _, memRead_zeroPage .., memRead_zeroPage .., ?_⟩
  rw [resolve, readPair_zext16, andThen_next, joinBytes_eq_ofNat, zext16_eq_ofNat, ← BitVec.ofNat_add]

end Sys2Proof.Machine
end

section
/-! PROOF of O34, O45, O37, O38: the stack instructions, calls and returns. -/

namespace Sys2Proof.Machine

/-- Settles O34: what the two operations leave, as records. -/
theorem pushAndPullAccumulator : Obligations.PushAndPullAccumulator := by
  unfold Obligations.PushAndPullAccumulator
  refine ⟨⟨rfl, runsAs_of_exec rfl opPha_eq⟩, ⟨rfl, runsAs_of_exec rfl fun s => ?_⟩⟩
  exact (opPla_eq s).trans (congrArg _ (commit_putA ..))

/-- Settles O45: `push_eq`, its decrement as a number. -/
theorem pushStoresThenDecrements : Obligations.PushStoresThenDecrements := by
  unfold Obligations.PushStoresThenDecrements
  intro v s
  refine ⟨?_, cellOf_stackAddr ..⟩
  rw [push_eq, byte_sub_one]
  rfl

theorem highByte_eq_ofNat (w : Addr) : highByte w = BitVec.ofNat 8 (w.toNat / 256) := by
  rw [← highByte_toNat, BitVec.ofNat_toNat, BitVec.setWidth_eq]

theorem lowByte_eq_ofNat (w : Addr) : lowByte w = BitVec.ofNat 8 w.toNat := by
  rw [BitVec.ofNat_toNat, lowByte]

/-- Settles O37: the word pushed is the address of the third byte, and its two bytes are numbers. -/
theorem jsrPushesTheReturnAddressMinusOne : Obligations.JsrPushesTheReturnAddressMinusOne := by
  unfold Obligations.JsrPushesTheReturnAddressMinusOne
  intro w s
  have ret : (s.pc.toNat + 2) % 65536 = (s.pc + 2).toNat := (BitVec.toNat_add s.pc 2).symm
  have two : s.sp - 1 - 1 = s.sp - 2 := by rw [BitVec.sub_sub]; rfl
  have h : exec (.jsr w) s = _ := (opJsr_next (o := .abs w)).2 ⟨w, _, rfl, pushWord_eq (s.pc + 2) s, rfl⟩
  simp only [h, ret, ← highByte_eq_ofNat, ← lowByte_eq_ofNat, ← two]
  rfl

/-- Settles O38: the popped word is a number, and the redirect is one more. -/
theorem rtsReturnsToThePoppedAddressPlusOne : Obligations.RtsReturnsToThePoppedAddressPlusOne := by
  unfold Obligations.RtsReturnsToThePoppedAddressPlusOne
  intro s
  have two : s.sp + 1 + 1 = s.sp + 2 := by rw [BitVec.add_assoc]; rfl
  have h : exec .rts s = _ := returnTo_eq s
  simp only [h, two, joinBytes_eq_ofNat, BitVec.ofNat_add]
  rfl

end Sys2Proof.Machine
end

section
/-! SUPPORT. A pair of bytes read, and the fetch, read by read. -/

namespace Sys2Proof.Machine

theorem readPair_of_bytes {p q : Addr} {lo hi : Byte} {s : State} (hlo : memRead p s = .next lo)
    (hhi : memRead q s = .next hi) : readPair p q s = .next (joinBytes lo hi) := by
  rw [readPair, hlo, andThen_next, hhi, andThen_next]

theorem readPair_of_forbidden_low {p q : Addr} (s : State) (hp : forbidden p = true) :
    readPair p q s = .fault (.restrictedRegion p) := by
  rw [readPair, memRead_of_forbidden hp, andThen_fault]

theorem readPair_of_forbidden_high {p q : Addr} (s : State) (hp : forbidden p = false) (hq : forbidden q = true) :
    readPair p q s = .fault (.restrictedRegion q) := by
  obtain ⟨k, hk⟩ := cellOf_isSome hp
  rw [readPair, memRead_of_cell hk, andThen_next, memRead_of_forbidden hq, andThen_fault]

theorem fetchInstr_of_two {s : State} {op : Byte} {f : Byte → Instr} (h : memRead s.pc s = .next op)
    (he : tableEntry s.cfg.extOfficial op = .two f) :
    fetchInstr s = andThen (memRead (s.pc + 1) s) fun b1 => .next (f b1) := by
  rw [fetchInstr, h, andThen_next, he]

theorem fetchInstr_of_three {s : State} {op : Byte} {f : Addr → Instr} (h : memRead s.pc s = .next op)
    (he : tableEntry s.cfg.extOfficial op = .three f) :
    fetchInstr s = andThen (readPair (s.pc + 1) (s.pc + 2) s) fun w => .next (f w) := by
  rw [fetchInstr, h, andThen_next, he, readPair]
  simp only [andThen_assoc, andThen_next]

/-- A fault of the fetch is the fault of the step. -/
theorem step_of_fetch_fault {s : State} {f : Fault} (hl : s.latch = none) (h : fetchInstr s = .fault f) :
    step s = .fault f := by
  rw [step_of_latch hl, h, andThen_fault]

end Sys2Proof.Machine
end

section
/-! PROOF of O36: the jumps. -/

namespace Sys2Proof.Machine

theorem exec_jmpInd_of_pointer {p ea : Addr} {s : State} (h : readPair p (p + 1) s = .next ea) :
    exec (.jmpInd p) s = .next { s with pc := ea } :=
  opJmp_next.2 ⟨ea, by rw [operandAddress, resolve, h]; rfl, rfl⟩

theorem exec_jmpInd_of_fault {p : Addr} {s : State} {r : Fault} (h : readPair p (p + 1) s = .fault r) :
    exec (.jmpInd p) s = .fault r := by
  rw [exec_eq_execOp]
  simp only [Instr.mnemonic, Instr.operand, execOp, opJmp, operandAddress, resolve, h, andThen_fault]

/-- Settles O36: the direct jump, and the indirect one by what reading its pointer gives. -/
theorem jumpsCommitTheirTarget : Obligations.JumpsCommitTheirTarget := by
  unfold Obligations.JumpsCommitTheirTarget
  refine ⟨fun w s => rfl, fun p s lo hi hlo hhi => ?_, fun p s hp => ?_, fun p s hp hq => ?_⟩
  · rw [← joinBytes_eq_ofNat]
    exact exec_jmpInd_of_pointer (readPair_of_bytes hlo hhi)
  · exact exec_jmpInd_of_fault (readPair_of_forbidden_low s hp)
  · exact exec_jmpInd_of_fault (readPair_of_forbidden_high s hp hq)

end Sys2Proof.Machine
end

section
/-! PROOF of O49: every access to the forbidden region. -/

namespace Sys2Proof.Machine

/-- Every operation but the jumps reaches the address its operand resolves to: a forbidden one is its fault. -/
theorem execOp_of_forbidden {m : Mnemonic} {o : Operand} {s : State} {p : Addr} (hm : m ∉ [.jmp, .jsr])
    (hfm : o.format ∈ formats m) (h : resolve o s = .next (.addr p)) (hp : forbidden p = true) :
    execOp m o s = .fault (.restrictedRegion p) := by
  cases m with
  | ora | and | eor | bit | adc | sbc | cmp | cpx | cpy | lda | ldx | ldy =>
    exact readInstr_of_fault (by rw [operandValue, h, andThen_next, loadOperand, memRead_of_forbidden hp])
  | sta | stx | sty =>
    simp only [execOp, opSta, opStx, opSty, storeInstr, h, andThen_next, storeResult, memWrite_of_forbidden hp, andThen_fault]
  | asl | lsr | rol | ror | inc | dec =>
    simp only [execOp, opAsl, opLsr, opRol, opRor, opInc, opDec, modifyInstr, h, andThen_next, loadOperand,
      memRead_of_forbidden hp, andThen_fault]
  | jmp | jsr => simp at hm
  | _ =>
    have noAddress : o.format ∈ [.imp, .rel] := List.subset_def.1 (by decide) hfm
    cases o with
    | imp | rel => cases h
    | _ => simp [Operand.format] at noAddress

/-- Settles O49: each access is a read or a write of the address, and its fault is passed on. -/
theorem forbiddenRegionFailsForEveryAccess : Obligations.ForbiddenRegionFailsForEveryAccess := by
  unfold Obligations.ForbiddenRegionFailsForEveryAccess
  intro p s lo hi
  have hp : forbidden p = true := (forbidden_iff p).2 ⟨lo, hi⟩
  have hread : memRead p s = .fault (.restrictedRegion p) := memRead_of_forbidden hp s
  refine ⟨hread, fun v => memWrite_of_forbidden hp v s, ?opcode, ?two, ?three, ?pointerLow, ?pointerHigh, ?effective,
    fun v => memWrite_of_forbidden hp v s, fun v hc => runMove_write_forbidden hc v hp, ?stack⟩
  case opcode =>
    rintro hl rfl
    exact step_of_opcode_fault hl hread
  case two =>
    rintro op f hl hop rfl he
    exact step_of_fetch_fault hl (by rw [fetchInstr_of_two hop he, hread, andThen_fault])
  case three =>
    intro op f hl hop he hpc
    refine step_of_fetch_fault hl ?_
    rw [fetchInstr_of_three hop he]
    rcases hpc with rfl | ⟨rfl, hfirst⟩
    · rw [readPair_of_forbidden_low s hp, andThen_fault]
    · rw [readPair_of_forbidden_high s hfirst hp, andThen_fault]
  case pointerLow => exact exec_jmpInd_of_fault (readPair_of_forbidden_low s hp)
  case pointerHigh =>
    intro hlow
    have back : p - 1 + 1 = p := BitVec.sub_add_cancel ..
    exact exec_jmpInd_of_fault (by rw [back]; exact readPair_of_forbidden_high s hlow hp)
  case effective =>
    intro i h hm
    rw [exec_eq_execOp]
    exact execOp_of_forbidden hm (format_mem_formats i) h hp
  case stack =>
    intro q
    have hpage := s.cfg.stackPage.isLt
    have hq := q.isLt
    exact ⟨_, if_pos (by rw [stackAddr_toNat]; omega)⟩

end Sys2Proof.Machine
end

section
/-! SUPPORT. Bytes put into the storage, and the step that runs what the decoder reads at `pc`. -/

namespace Sys2Proof.Machine

/-- Bytes put into the storage change nothing else. -/
theorem pokeBytes_eq_withMem (addr : Addr) (bytes : List Byte) (s : State) :
    ∃ m, pokeBytes addr bytes s = s.withMem m := by
  induction bytes generalizing addr s with
  | nil => exact ⟨s.mem, rfl⟩
  | cons v vs ih =>
    rw [pokeBytes]
    cases cellOf addr with
    | some k => exact ih (addr + 1) (s.withMem (s.mem.write k v))
    | none => exact ih (addr + 1) s

theorem pokeBytes_cons_of_cell {addr : Addr} {k : Nat} (h : cellOf addr = some k) (v : Byte) (vs : List Byte) (s : State) :
    pokeBytes addr (v :: vs) s = pokeBytes (addr + 1) vs (s.withMem (s.mem.write k v)) := by
  rw [pokeBytes, h]

theorem add_ofNat_succ (addr : Addr) (j : Nat) : addr + BitVec.ofNat 16 (j + 1) = addr + 1 + BitVec.ofNat 16 j := by
  rw [Nat.add_comm, BitVec.ofNat_add, BitVec.add_assoc]
  rfl

/-- Bytes put into cells leave every address apart from theirs alone. -/
theorem memRead_pokeBytes_apart {addr q : Addr} {bytes : List Byte} {s : State} (wf : Inv s)
    (free : ∀ j < bytes.length, forbidden (addr + BitVec.ofNat 16 j) = false)
    (apart : ∀ j < bytes.length, Apart q (addr + BitVec.ofNat 16 j)) :
    memRead q (pokeBytes addr bytes s) = memRead q s := by
  induction bytes generalizing addr s with
  | nil => rfl
  | cons v vs ih =>
    obtain ⟨k, hk⟩ : ∃ k, cellOf addr = some k := cellOf_isSome (by simpa using free 0 (by simp))
    have first : Apart q addr := by simpa using apart 0 (by simp)
    have next {j : Nat} (hj : j < vs.length) : j + 1 < (v :: vs).length := by simpa using hj
    rw [pokeBytes_cons_of_cell hk]
    calc memRead q (pokeBytes (addr + 1) vs (s.withMem (s.mem.write k v)))
      _ = memRead q (s.withMem (s.mem.write k v)) :=
        ih (wf_write wf (isCell_cellOf hk)) (fun j hj => add_ofNat_succ addr j ▸ free (j + 1) (next hj))
          (fun j hj => add_ofNat_succ addr j ▸ apart (j + 1) (next hj))
      _ = memRead q s := memRead_write_apart wf hk rfl first

/-- Addresses less than eight apart are no mirrors of each other. -/
theorem apart_add {addr : Addr} {j : Nat} (hf : forbidden addr = false) (pos : 0 < j) (lt : j < 8) :
    Apart addr (addr + BitVec.ofNat 16 j) := by
  have hsum : (addr + BitVec.ofNat 16 j).toNat = (addr.toNat + j) % 65536 := by
    rw [BitVec.toNat_add, BitVec.toNat_ofNat, Nat.add_mod_mod]
  have hlt := addr.isLt
  rcases apart_or_eq_or_mirrored (q := addr + BitVec.ofNat 16 j) hf with h | h | h
  · exact h
  · rw [← BitVec.toNat_inj] at h
    omega
  · unfold Mirrored at h
    omega

/-- Up to eight bytes put where every address has a cell stand there. -/
theorem bytesAt_pokeBytes {addr : Addr} {bytes : List Byte} {s : State} (wf : Inv s) (len : bytes.length ≤ 8)
    (free : ∀ j < bytes.length, forbidden (addr + BitVec.ofNat 16 j) = false) :
    BytesAt addr bytes (pokeBytes addr bytes s) := by
  induction bytes generalizing addr s with
  | nil => exact nofun
  | cons v vs ih =>
    rw [List.length_cons] at len
    have hf : forbidden addr = false := by simpa using free 0 (by simp)
    obtain ⟨k, hk⟩ := cellOf_isSome hf
    have wf' : Inv (s.withMem (s.mem.write k v)) := wf_write wf (isCell_cellOf hk)
    have free' (j : Nat) (hj : j < vs.length) : forbidden (addr + 1 + BitVec.ofNat 16 j) = false :=
      add_ofNat_succ addr j ▸ free (j + 1) (by simpa using hj)
    rw [pokeBytes_cons_of_cell hk]
    intro j u hu
    cases j with
    | zero =>
      obtain rfl : v = u := Option.some.inj hu
      rw [BitVec.add_zero, memRead_pokeBytes_apart wf' free' fun j hj =>
        add_ofNat_succ addr j ▸ apart_add hf (Nat.succ_pos j) (by omega), memRead_of_cell hk]
      exact congrArg _ (read_write_same wf)
    | succ j =>
      rw [add_ofNat_succ]
      exact ih wf' (by omega) free' j u hu

theorem placeAddr_free (pc : Addr) {j : Nat} (hj : j < 3) : forbidden (placeAddr pc + BitVec.ofNat 16 j) = false := by
  unfold placeAddr
  split
  · match j with
    | 0 | 1 | 2 => decide
  · next h =>
    simp only [Bool.or_eq_true, not_or, Bool.not_eq_true] at h
    obtain ⟨⟨h0, h1⟩, h2⟩ := h
    match j with
    | 0 => rw [BitVec.add_zero, h0]
    | 1 => exact h1
    | 2 => exact h2

/-- What placing an instruction leaves: everything but `pc`, the latch, the gate and the storage. -/
theorem placeInstr_eq (bytes : List Byte) (s : State) :
    ∃ m, placeInstr bytes s = { s with
      pc := placeAddr s.pc
      mem := m
      latch := none
      cfg := { s.cfg with extOfficial := s.cfg.extOfficial || isExtensionOpcode (bytes.headD 0x00#8) } } := by
  obtain ⟨m, e⟩ := pokeBytes_eq_withMem (placeAddr s.pc) bytes _
  exact ⟨m, e⟩

theorem bytesAt_placeInstr {bytes : List Byte} {s : State} (wf : Inv s) (len : bytes.length ≤ 3) :
    BytesAt (placeAddr s.pc) bytes (placeInstr bytes s) :=
  bytesAt_pokeBytes wf (by omega) fun _ hj => placeAddr_free s.pc (by omega)

/-- The fetch reads what the decoder reads from the bytes that stand at `pc`. -/
theorem fetchInstr_of_decode {s : State} {bytes rest : List Byte} {i : Instr} (h : BytesAt s.pc bytes s)
    (hd : decode s.cfg.extOfficial bytes = .ok (i, rest)) : fetchInstr s = .next i := by
  cases bytes with
  | nil => cases hd
  | cons op bytes =>
    have hop : memRead s.pc s = .next op := by simpa using h 0 op rfl
    have first {b : Byte} (hb : bytes[0]? = some b) : memRead (s.pc + 1) s = .next b := h 1 b hb
    have second {b : Byte} (hb : bytes[1]? = some b) : memRead (s.pc + 2) s = .next b := h 2 b hb
    cases he : tableEntry s.cfg.extOfficial op with
    | illegal => simp [decode, he] at hd
    | one j =>
      obtain ⟨rfl, -⟩ : j = i ∧ bytes = rest := by simpa [decode, he] using hd
      rw [fetchInstr, hop, andThen_next, he]
    | two f =>
      match bytes with
      | [] => simp [decode, he] at hd
      | b1 :: after =>
        obtain ⟨rfl, -⟩ : f b1 = i ∧ after = rest := by simpa [decode, he] using hd
        rw [fetchInstr_of_two hop he, first rfl, andThen_next]
    | three f =>
      match bytes with
      | [] | [_] => simp [decode, he] at hd
      | b1 :: b2 :: after =>
        obtain ⟨rfl, -⟩ : f (joinBytes b1 b2) = i ∧ after = rest := by simpa [decode, he] using hd
        rw [fetchInstr_of_three hop he, readPair_of_bytes (first rfl) (second rfl), andThen_next]

/-- A machine that is not halted runs the instruction that the decoder of its table reads from the bytes at `pc`. -/
theorem step_of_decode {s : State} {bytes rest : List Byte} {i : Instr} (hl : s.latch = none)
    (h : BytesAt s.pc bytes s) (hd : decode s.cfg.extOfficial bytes = .ok (i, rest)) : step s = exec i s := by
  rw [step_of_latch hl, fetchInstr_of_decode h hd, andThen_next]

/-- An open gate makes no difference beyond the extension opcodes. -/
theorem decode_gate (ext : Bool) (bytes : List Byte) :
    decode (ext || isExtensionOpcode (bytes.headD 0x00#8)) bytes = decode true bytes := by
  cases bytes with
  | nil => rfl
  | cons op bytes =>
    have he : tableEntry (ext || isExtensionOpcode op) op = tableEntry true op := by
      cases hop : isExtensionOpcode op with
      | true => rw [Bool.or_true]
      | false => simp [tableEntry, hop]
    rw [List.headD_cons]
    unfold decode
    simp only [he]

theorem decodeTableWord_eq_some {nbits w : Nat} {i : Instr} (h : decodeTableWord nbits w = some i) :
    ∃ rest, decode true (wordBytes nbits w) = .ok (i, rest) := by
  unfold decodeTableWord at h
  split at h
  · next j rest e =>
    cases h
    exact ⟨rest, e⟩
  · cases h

end Sys2Proof.Machine
end

section
/-! PROOF of O59: an instruction placed for the next fetch. -/

namespace Sys2Proof.Machine

/-- Settles O59: the placed bytes stand at `pc`, and the gate placed with them decodes them as the complete table does. -/
theorem placedInstructionRunsNext : Obligations.PlacedInstructionRunsNext := by
  unfold Obligations.PlacedInstructionRunsNext
  intro s nbits w i wf h
  obtain ⟨rest, hd⟩ := decodeTableWord_eq_some h
  obtain ⟨m, e⟩ := placeInstr_eq (wordBytes nbits w) s
  have placed := bytesAt_placeInstr (bytes := wordBytes nbits w) wf (Nat.le_refl 3)
  rw [State.withFetchWord]
  rw [e] at placed ⊢
  exact ⟨step_of_decode rfl placed ((decode_gate ..).trans hd), rfl, rfl, rfl, rfl, rfl⟩

end Sys2Proof.Machine
end

section
/-! SUPPORT. The table of R74 held against that of R75: every entry spells the bytes it was found by. -/

namespace Sys2Proof

/-- What an entry found by the byte `op` builds is encoded as `op` followed by the operand bytes it was built from. -/
def Entry.Spells (op : Byte) : Entry → Prop
  | .illegal => True
  | .one i => encode i = [op]
  | .two f => ∀ b, encode (f b) = [op, b]
  | .three f => ∀ w, encode (f w) = [op, lowByte w, highByte w]

/-- The entries of a list spell the bytes from `n` upwards, one after the other. -/
def SpelledFrom : Nat → List Entry → Prop
  | _, [] => True
  | n, e :: es => e.Spells (BitVec.ofNat 8 n) ∧ SpelledFrom (n + 1) es

theorem SpelledFrom.getD {n : Nat} {es : List Entry} (h : SpelledFrom n es) (k : Nat) :
    (es.getD k .illegal).Spells (BitVec.ofNat 8 (n + k)) := by
  induction es generalizing n k with
  | nil => trivial
  | cons e es ih =>
    obtain ⟨first, others⟩ := h
    cases k with
    | zero => exact first
    | succ k =>
      rw [Nat.add_comm k 1, ← Nat.add_assoc, Nat.add_comm 1 k]
      exact ih others k

/-- Each of the sixteen rows of R74 spells its sixteen bytes. -/
theorem tableRow_spelled (h : Nat) : SpelledFrom (h * 16) (tableRows.getD h []) :=
  match h with
  | 0 | 1 | 2 | 3 | 4 | 5 | 6 | 7 | 8 | 9 | 10 | 11 | 12 | 13 | 14 | 15 => by
    simp [tableRows, tableRow0, tableRow1, tableRow2, tableRow3, tableRow4, tableRow5, tableRow6, tableRow7, tableRow8,
      tableRow9, tableRowA, tableRowB, tableRowC, tableRowD, tableRowE, tableRowF, SpelledFrom, Entry.Spells, encode,
      Instr.opcode, Instr.operand, Operand.bytes]
  | _ + 16 => trivial

theorem fullEntry_spells (op : Byte) : (fullEntry op).Spells op := by
  have h := (tableRow_spelled (op.toNat / 16)).getD (op.toNat % 16)
  rwa [Nat.div_add_mod', BitVec.ofNat_toNat, BitVec.setWidth_eq] at h

theorem tableEntry_spells (ext : Bool) (op : Byte) : (tableEntry ext op).Spells op := by
  unfold tableEntry
  split
  · trivial
  · exact fullEntry_spells op

/-- An instruction whose opcode byte has an entry is of that table: the 15 gated bytes are those of the extension set. -/
theorem wellFormed_of_tableEntry {ext : Bool} {i : Instr} (h : tableEntry ext i.opcode ≠ .illegal) :
    i.wellFormed ext = true := by
  obtain ⟨-, gate, -⟩ := encoding_facts i
  cases ext with
  | true => exact Bool.true_or _
  | false =>
    have official : i.isExtension = false := Bool.eq_false_iff.2 fun he => h (if_pos (by rw [gate, he]; rfl))
    rw [Instr.wellFormed, official]
    rfl

/-- Whether an entry holds no instruction. -/
def Entry.isIllegal : Entry → Bool
  | .illegal => true
  | .one _ | .two _ | .three _ => false

theorem Entry.isIllegal_iff {e : Entry} : e.isIllegal = true ↔ e = .illegal := by
  cases e <;> simp [Entry.isIllegal]

/-- The bytes of the complete table without an instruction are the 105 that R76 lists. -/
theorem fullEntry_isIllegal : ∀ op : Byte, (fullEntry op).isIllegal = Machine.illegalOpcodes.contains op.toNat := by
  decide

theorem fullEntry_eq_illegal_iff (op : Byte) : fullEntry op = .illegal ↔ op.toNat ∈ Machine.illegalOpcodes := by
  rw [← Entry.isIllegal_iff, fullEntry_isIllegal, List.contains_iff_mem]

/-- The bytes without an entry: the 105 of R76, and the 15 of R77 behind a closed gate. -/
theorem tableEntry_eq_illegal_iff (ext : Bool) (op : Byte) :
    tableEntry ext op = .illegal ↔ op.toNat ∈ Machine.illegalOpcodes ∨ (ext = false ∧ op ∈ extensionOpcodes) := by
  have gate : (isExtensionOpcode op && !ext) = true ↔ ext = false ∧ op ∈ extensionOpcodes := by
    rw [Bool.and_eq_true, Bool.not_eq_true', isExtensionOpcode, List.contains_iff_mem, and_comm]
  rw [← fullEntry_eq_illegal_iff, ← gate, tableEntry]
  split
  · next closed => exact iff_of_true rfl (.inr closed)
  · next opened => exact (or_iff_left opened).symm

end Sys2Proof
end

section
/-! PROOF of O1, O2, O3: encoding and decoding are inverse to each other. -/

namespace Sys2Proof.Machine

/-- The decoder reads an instruction of its table back from the bytes of the instruction, whatever follows them. -/
theorem decode_encode {ext : Bool} {i : Instr} (wf : i.wellFormed ext = true) (rest : List Byte) :
    decode ext (encode i ++ rest) = .ok (i, rest) := by
  have entry := tableEntry_opcode wf
  obtain ⟨-, -, ⟨e, operands⟩ | ⟨f, b, e, rfl, operands⟩ | ⟨f, w, e, rfl, operands⟩⟩ := encoding_facts i
  · simp [decode, encode, entry, e, operands]
  · simp [decode, encode, entry, e, operands]
  · simp [decode, encode, entry, e, operands, joinBytes_lowByte_highByte]

/-- Settles O1: the table's entry for the opcode byte takes the operand bytes and builds the instruction again. -/
theorem decodeOfEncodeIsTheInstruction : Obligations.DecodeOfEncodeIsTheInstruction := by
  unfold Obligations.DecodeOfEncodeIsTheInstruction
  exact fun ext i rest wf => decode_encode wf rest

/-- What the decoder reads has an entry for its first byte, and is spelled by the bytes before the rest. -/
theorem decode_eq_ok {ext : Bool} {bytes rest : List Byte} {i : Instr} (h : decode ext bytes = .ok (i, rest)) :
    tableEntry ext (bytes.headD 0x00#8) ≠ .illegal ∧ encode i ++ rest = bytes := by
  cases bytes with
  | nil => cases h
  | cons op bytes =>
    have spells := tableEntry_spells ext op
    rw [List.headD_cons]
    cases e : tableEntry ext op with
    | illegal => simp [decode, e] at h
    | one j =>
      obtain ⟨rfl, rfl⟩ : j = i ∧ bytes = rest := by simpa [decode, e] using h
      rw [e] at spells
      exact ⟨nofun, congrArg (· ++ bytes) spells⟩
    | two f =>
      match bytes with
      | [] => simp [decode, e] at h
      | b :: after =>
        obtain ⟨rfl, rfl⟩ : f b = i ∧ after = rest := by simpa [decode, e] using h
        rw [e] at spells
        exact ⟨nofun, congrArg (· ++ after) (spells b)⟩
    | three f =>
      match bytes with
      | [] | [_] => simp [decode, e] at h
      | lo :: hi :: after =>
        obtain ⟨rfl, rfl⟩ : f (joinBytes lo hi) = i ∧ after = rest := by simpa [decode, e] using h
        rw [e] at spells
        have operands := spells (joinBytes lo hi)
        rw [lowByte_joinBytes, highByte_joinBytes] at operands
        exact ⟨nofun, congrArg (· ++ after) operands⟩

/-- Settles O2: the first byte is the opcode of the instruction read, and its entry in the table makes it well formed. -/
theorem decodedBytesAreTheEncoding : Obligations.DecodedBytesAreTheEncoding := by
  unfold Obligations.DecodedBytesAreTheEncoding
  intro ext bytes i rest h
  obtain ⟨entry, rfl⟩ := decode_eq_ok h
  exact ⟨wellFormed_of_tableEntry entry, rfl⟩

theorem decode_of_illegal {ext : Bool} {op : Byte} (h : tableEntry ext op = .illegal) (rest : List Byte) :
    decode ext (op :: rest) = .error (.illegalOpcode op) := by
  simp [decode, h]

/-- Settles O3: eleven encodings decoded, and an extension byte behind the closed gate. -/
theorem sampleWordsDecodeToTheirInstructions : Obligations.SampleWordsDecodeToTheirInstructions := by
  unfold Obligations.SampleWordsDecodeToTheirInstructions
  exact ⟨decode_encode (i := .oraImm 0x80#8) rfl [], decode_encode (i := .adcAbx 0x0200#16) rfl [],
    decode_encode (i := .rorAcc) rfl [], decode_encode (i := .decAbx 0x0200#16) rfl [],
    decode_encode (i := .stxZpy 0x10#8) rfl [], decode_encode (i := .bpl 0xF9#8) rfl [],
    decode_encode (i := .pha) rfl [], decode_encode (i := .jmpInd 0x02FF#16) rfl [],
    decode_encode (i := .sei) rfl [], decode_encode (i := .brk) rfl [], decode_encode (i := .sbcIzy 0x40#8) rfl [],
    decode_of_illegal ((tableEntry_eq_illegal_iff ..).2 (.inr ⟨rfl, by decide⟩)) _⟩

end Sys2Proof.Machine
end

section
/-! SUPPORT. What a step or an execution that faults met, and the byte a completed fetch read. -/

namespace Sys2Proof.Machine

/-- A step that faults did so, on a machine that is not halted, in its fetch or in its execution. -/
theorem step_fault {s : State} {f : Fault} (h : step s = .fault f) :
    s.latch = none ∧ (fetchInstr s = .fault f ∨ ∃ i, fetchInstr s = .next i ∧ exec i s = .fault f) := by
  cases hl : s.latch with
  | some k => cases (step_of_halted hl).symm.trans h
  | none =>
    rw [step_of_latch hl, andThen_eq_fault] at h
    exact ⟨rfl, h⟩

/-- An execution that faults is BRK's, or met a forbidden address in a format that can reach one. -/
theorem exec_fault {i : Instr} {s : State} {f : Fault} (h : exec i s = .fault f) :
    (i = .brk ∧ f = .notImplemented) ∨
      ∃ p, f = .restrictedRegion p ∧ forbidden p = true ∧ i.operand.format ∈ reachingFormats := by
  rcases exec_ends i s with ⟨hi, e⟩ | ⟨t, e⟩ | ⟨p, e, hp, hf⟩ <;> cases h.symm.trans e
  · exact .inl ⟨hi, rfl⟩
  · exact .inr ⟨p, rfl, hp, hf⟩

/-- A completed fetch read the opcode byte of its instruction at `pc`. -/
theorem memRead_of_fetchInstr {s : State} {i : Instr} (h : fetchInstr s = .next i) :
    memRead s.pc s = .next i.opcode := by
  obtain ⟨op, hop, -⟩ := andThen_eq_next.1 h
  have spells := tableEntry_spells s.cfg.extOfficial op
  suffices hi : i.opcode = op by rw [hi, hop]
  cases e : tableEntry s.cfg.extOfficial op with
  | illegal =>
    rw [fetchInstr, hop, andThen_next, e] at h
    cases h
  | one j =>
    rw [fetchInstr, hop, andThen_next, e] at h
    rw [e] at spells
    cases h
    exact (List.cons.inj spells).1
  | two f =>
    rw [fetchInstr_of_two hop e] at h
    rw [e] at spells
    obtain ⟨b, -, hb⟩ := andThen_eq_next.1 h
    cases hb
    exact (List.cons.inj (spells b)).1
  | three f =>
    rw [fetchInstr_of_three hop e] at h
    rw [e] at spells
    obtain ⟨w, -, hw⟩ := andThen_eq_next.1 h
    cases hw
    exact (List.cons.inj (spells w)).1

theorem fetchInstr_of_illegal {s : State} {op : Byte} (h : memRead s.pc s = .next op)
    (he : tableEntry s.cfg.extOfficial op = .illegal) : fetchInstr s = .fault (.illegalOpcode op) := by
  rw [fetchInstr, h, andThen_next, he]

end Sys2Proof.Machine
end

section
/-! PROOF of O4: the opcode bytes that stop a step. -/

namespace Sys2Proof.Machine

/-- A step that can read its opcode byte faults for that byte exactly when the run's table has no entry for it. -/
theorem step_illegalOpcode_iff {s : State} {op : Byte} (hl : s.latch = none) (hop : memRead s.pc s = .next op) :
    step s = .fault (.illegalOpcode op) ↔ tableEntry s.cfg.extOfficial op = .illegal := by
  constructor
  · intro h
    obtain ⟨-, h | ⟨i, -, h⟩⟩ := step_fault h
    · rcases fetchInstr_fault h with ⟨_, hf, -, e⟩ | ⟨p, hf, -⟩ <;> cases hf
      exact e
    · rcases exec_fault h with ⟨-, hf⟩ | ⟨p, hf, -⟩ <;> cases hf
  · exact fun e => step_of_fetch_fault hl (fetchInstr_of_illegal hop e)

/-- Settles O4: the bytes without an entry, and the latch of a step that faults. -/
theorem illegalOpcodesStopTheStep : Obligations.IllegalOpcodesStopTheStep := by
  unfold Obligations.IllegalOpcodesStopTheStep
  intro s op hl hop
  exact ⟨(step_illegalOpcode_iff hl hop).trans (tableEntry_eq_illegal_iff ..), stepLatched_of_fault⟩

end Sys2Proof.Machine
end

section
/-! PROOF of O9: the faults of execution. -/

namespace Sys2Proof.Machine

/-- Settles O9: the reaching formats are those named, and JSR and the direct JMP, though of format ABS, complete. -/
theorem executionFaultsAreBrkOrForbiddenAccesses : Obligations.ExecutionFaultsAreBrkOrForbiddenAccesses := by
  unfold Obligations.ExecutionFaultsAreBrkOrForbiddenAccesses
  intro i s f h
  rcases exec_fault h with brk | ⟨p, hf, hp, format⟩
  · exact .inl brk
  · refine .inr ⟨⟨p, hf, (forbidden_iff p).1 hp⟩, format, ?_, ?_⟩
    · rintro w rfl
      obtain ⟨t, e⟩ : ∃ t, exec (.jsr w) s = .next t := opJsr_abs_completes w s
      cases h.symm.trans e
    · rintro w rfl
      cases h

end Sys2Proof.Machine
end

section
/-! PROOF of O43, O44: BRK, and the one fault it alone raises. -/

namespace Sys2Proof.Machine

theorem step_of_brk_byte {s : State} (hl : s.latch = none) (h : memRead s.pc s = .next 0x00#8) :
    step s = .fault .notImplemented := by
  have fetched : fetchInstr s = .next .brk := fetchInstr_of_oneByte rfl (Bool.or_true _) h
  rw [step_of_latch hl, fetched]
  rfl

/-- Settles O43: the execution is the fault, and so is the step that fetches it. -/
theorem brkAlwaysRaisesNotImplemented : Obligations.BrkAlwaysRaisesNotImplemented := by
  unfold Obligations.BrkAlwaysRaisesNotImplemented
  refine ⟨fun s => rfl, fun s hl h => ?_⟩
  have faults := step_of_brk_byte hl h
  exact ⟨faults, stepLatched_of_fault faults⟩

/-- Settles O44: a fetch has other faults, and the execution that has this one is BRK's, whose opcode byte is 0x00. -/
theorem notImplementedIsRaisedByByteZeroOnly : Obligations.NotImplementedIsRaisedByByteZeroOnly := by
  unfold Obligations.NotImplementedIsRaisedByByteZeroOnly
  refine fun s => ⟨fun h => ?_, fun ⟨hl, hop⟩ => step_of_brk_byte hl hop⟩
  obtain ⟨hl, h | ⟨i, fetched, h⟩⟩ := step_fault h
  · rcases fetchInstr_fault h with ⟨op, hf, -⟩ | ⟨p, hf, -⟩ <;> cases hf
  · rcases exec_fault h with ⟨rfl, -⟩ | ⟨p, hf, -⟩
    · exact ⟨hl, memRead_of_fetchInstr fetched⟩
    · cases hf

end Sys2Proof.Machine
end

section
/-! PROOF of O52, O41: the indexed modes, and the flag instructions. -/

namespace Sys2Proof.Machine

theorem zext16_add_eq_ofNat (b x : Byte) : zext16 (b + x) = BitVec.ofNat 16 ((b.toNat + x.toNat) % 256) := by
  rw [zext16_eq_ofNat, BitVec.toNat_add]

theorem add_zext16_eq_ofNat (w : Addr) (x : Byte) : w + zext16 x = BitVec.ofNat 16 (w.toNat + x.toNat) := by
  rw [zext16_eq_ofNat, BitVec.ofNat_add, BitVec.ofNat_toNat 16 w, BitVec.setWidth_eq]

/-- The format ZPY is that of LDX and STX only (R75). -/
theorem mnemonic_of_zpy {m : Mnemonic} (h : .zpy ∈ formats m) : m = .ldx ∨ m = .stx := by
  cases m with
  | ldx => exact .inl rfl
  | stx => exact .inr rfl
  | _ => simp [formats] at h

/-- Settles O52: the sums in the zero page and over 16 bits, as numbers, and the pairing of ZPY by the table of formats. -/
theorem indexedModesWrapWhereTheSpecSays : Obligations.IndexedModesWrapWhereTheSpecSays := by
  unfold Obligations.IndexedModesWrapWhereTheSpecSays
  refine ⟨fun b s => ?zp, fun b s => ?zpx, fun b s => ?zpy, fun w s => ?abx, fun w s => ?aby, fun i h => ?pairing⟩
  case zp => rw [resolve, zext16_eq_ofNat]
  case zpx => rw [resolve, zext16_add_eq_ofNat]
  case zpy => rw [resolve, zext16_add_eq_ofNat]
  case abx => rw [resolve, add_zext16_eq_ofNat]
  case aby => rw [resolve, add_zext16_eq_ofNat]
  case pairing => exact mnemonic_of_zpy (h ▸ format_mem_formats i)

/-- A one-byte instruction whose operation sets the flags runs so. -/
theorem runsAs_of_flagInstr {i : Instr} {flags : Flags → Flags} (h : i.operand.bytes = [])
    (he : ∀ s, exec i s = flagInstr (flags s.flags) s) :
    RunsAs i fun s => { s with flags := flags s.flags, pc := s.pc + 1 } :=
  runsAs_of_exec h he

/-- Settles O41: each is the flag operation with its flag a constant. -/
theorem flagInstructionsChangeOneFlag : Obligations.FlagInstructionsChangeOneFlag := by
  unfold Obligations.FlagInstructionsChangeOneFlag
  refine ⟨⟨rfl, ?clc⟩, ⟨rfl, ?sec⟩, ⟨rfl, ?cli⟩, ⟨rfl, ?sei⟩, ⟨rfl, ?clv⟩⟩
  case clc => exact runsAs_of_flagInstr (flags := fun f => { f with c := false }) rfl fun s => rfl
  case sec => exact runsAs_of_flagInstr (flags := fun f => { f with c := true }) rfl fun s => rfl
  case cli => exact runsAs_of_flagInstr (flags := fun f => { f with i := false }) rfl fun s => rfl
  case sei => exact runsAs_of_flagInstr (flags := fun f => { f with i := true }) rfl fun s => rfl
  case clv => exact runsAs_of_flagInstr (flags := fun f => { f with v := false }) rfl fun s => rfl

end Sys2Proof.Machine
end

section
/-! PROOF of O5, O6: the step runs what stands at `pc`, and the order of the fetch's faults. -/

namespace Sys2Proof.Machine

/-- Settles O5: the fetch reads what the decoder reads. -/
theorem stepRunsTheDecodedInstruction : Obligations.StepRunsTheDecodedInstruction := by
  unfold Obligations.StepRunsTheDecodedInstruction
  exact fun s bytes i hl placed hd => step_of_decode hl placed hd

theorem fetchInstr_of_one {s : State} {op : Byte} {i : Instr} (h : memRead s.pc s = .next op)
    (he : tableEntry s.cfg.extOfficial op = .one i) : fetchInstr s = .next i := by
  rw [fetchInstr, h, andThen_next, he]

/-- Settles O6: one case per kind of entry, each fault that of the first read of the fetch that fails. -/
theorem fetchFaultsInTheOrderOfTheStep : Obligations.FetchFaultsInTheOrderOfTheStep := by
  unfold Obligations.FetchFaultsInTheOrderOfTheStep
  refine fun s hl => ⟨fun hpc => step_of_opcode_fault hl (memRead_of_forbidden hpc s), fun op hop => ?_⟩
  cases he : tableEntry s.cfg.extOfficial op with
  | illegal => exact step_of_fetch_fault hl (fetchInstr_of_illegal hop he)
  | one i =>
    show step s = exec i s
    rw [step_of_latch hl, fetchInstr_of_one hop he, andThen_next]
  | two f =>
    intro hfirst
    apply step_of_fetch_fault hl
    rw [fetchInstr_of_two hop he, memRead_of_forbidden hfirst, andThen_fault]
  | three f =>
    refine ⟨fun hfirst => step_of_fetch_fault hl ?_, fun hfirst hsecond => step_of_fetch_fault hl ?_⟩
    · rw [fetchInstr_of_three hop he, readPair_of_forbidden_low s hfirst, andThen_fault]
    · rw [fetchInstr_of_three hop he, readPair_of_forbidden_high s hfirst hsecond, andThen_fault]

end Sys2Proof.Machine
end

section
/-! PROOF of O10: the forms that always complete. -/

namespace Sys2Proof.Machine

/-- An instruction other than BRK whose format cannot reach the forbidden region completes. -/
theorem exec_completes_of_format {i : Instr} (s : State) (hi : i ≠ .brk) (hf : i.operand.format ∉ reachingFormats) :
    ∃ t, exec i s = .next t := by
  rcases exec_ends i s with ⟨brk, -⟩ | completes | ⟨p, -, -, reaching⟩
  · exact absurd brk hi
  · exact completes
  · exact absurd reaching hf

/-- Settles O10: none of the formats named is a reaching one, and the two direct jumps do not access their operand. -/
theorem formsWithoutForbiddenAccessComplete : Obligations.FormsWithoutForbiddenAccessComplete := by
  unfold Obligations.FormsWithoutForbiddenAccessComplete
  have apart : ∀ fm ∈ [Format.imp, .acc, .imm, .rel, .zp, .zpx, .zpy], fm ∉ reachingFormats := by decide
  rintro i s hi (hf | ⟨w, rfl⟩ | ⟨w, rfl⟩)
  · exact exec_completes_of_format s hi (apart _ hf)
  · exact opJsr_abs_completes w s
  · exact ⟨_, rfl⟩

end Sys2Proof.Machine
end

section
/-! PROOF of O25: the shifts of the accumulator. -/

namespace Sys2Proof.Machine

/-- A mnemonic with an accumulator form is a shift, and that form moves the bits of `A`. -/
theorem execOp_shift_of_acc {m : Mnemonic} (h : .acc ∈ formats m) (s : State) :
    ∃ out, shiftSpec m s.a s.flags.c = some out ∧
      execOp m .acc s = .next { s with a := out.1, flags := s.flags.afterShift out, pc := s.pc + 1 } := by
  cases m with
  | asl => exact ⟨_, shiftSpec_asl .., rfl⟩
  | lsr => exact ⟨_, shiftSpec_lsr .., rfl⟩
  | rol => exact ⟨_, shiftSpec_rol .., rfl⟩
  | ror => exact ⟨_, shiftSpec_ror .., rfl⟩
  | _ => simp [formats] at h

/-- Settles O25: the shared operation of each shift at the accumulator, its flags in the spec's words. -/
theorem accumulatorShiftsCompute : Obligations.AccumulatorShiftsCompute := by
  unfold Obligations.AccumulatorShiftsCompute
  intro i s h
  have hfm := format_mem_formats i
  rw [h] at hfm
  obtain ⟨⟨r, c⟩, hout, he⟩ := execOp_shift_of_acc hfm s
  refine ⟨r, c, hout, ?_⟩
  rw [exec_eq_execOp, h, he, afterShift_eq_zeroNegative]

end Sys2Proof.Machine
end

section
/-! PROOF of O33: the branches. -/

namespace Sys2Proof.Machine

/-- The value of an offset, as the spec's numbers: 128 and more are negative (R8). -/
theorem toInt_eq_ite (b : Byte) : b.toInt = if b.toNat < 128 then (b.toNat : Int) else (b.toNat : Int) - 256 := by
  rw [BitVec.toInt_eq_toNat_cond]
  by_cases small : b.toNat < 128
  · exact (if_pos (by omega)).trans (if_pos small).symm
  · exact (if_neg (by omega)).trans (if_neg small).symm

theorem add_two_eq_ofNat (pc : Addr) : pc + 2 = BitVec.ofNat 16 (pc.toNat + 2) := by
  rw [BitVec.ofNat_add, BitVec.ofNat_toNat, BitVec.setWidth_eq]
  rfl

/-- The branch target over the integers (R107). -/
theorem relTarget_eq_ofInt (pc : Addr) (off : Byte) :
    relTarget pc off = BitVec.ofInt 16 ((pc.toNat : Int) + 2 + off.toInt) := by
  rw [relTarget, add_two_eq_ofNat, BitVec.ofInt_add]
  rfl

/-- A branch on a flag that is set: the rule of R180 as a record. -/
theorem branchInstr_of_set (flag : Bool) (off : Byte) (s : State) :
    branchInstr flag off s = .next { s with
      pc := if flag = true then BitVec.ofInt 16 ((s.pc.toNat : Int) + 2 + off.toInt)
        else BitVec.ofNat 16 (s.pc.toNat + 2) } := by
  rw [← relTarget_eq_ofInt, ← add_two_eq_ofNat]
  rfl

/-- A branch on a flag that is clear. -/
theorem branchInstr_of_clear (flag : Bool) (off : Byte) (s : State) :
    branchInstr (!flag) off s = .next { s with
      pc := if flag = false then BitVec.ofInt 16 ((s.pc.toNat : Int) + 2 + off.toInt)
        else BitVec.ofNat 16 (s.pc.toNat + 2) } := by
  simp only [branchInstr_of_set, Bool.not_eq_true']

/-- Settles O33: each branch is the common rule on its flag, set or clear. -/
theorem branchesCommitTargetOrFallThrough : Obligations.BranchesCommitTargetOrFallThrough := by
  unfold Obligations.BranchesCommitTargetOrFallThrough
  intro off s
  simp only [← toInt_eq_ite]
  refine ⟨?bpl, ?bmi, ?bvc, ?bvs, ?bcc, ?bcs, ?bne, ?beq⟩
  case bpl => exact branchInstr_of_clear s.flags.n off s
  case bmi => exact branchInstr_of_set s.flags.n off s
  case bvc => exact branchInstr_of_clear s.flags.v off s
  case bvs => exact branchInstr_of_set s.flags.v off s
  case bcc => exact branchInstr_of_clear s.flags.c off s
  case bcs => exact branchInstr_of_set s.flags.c off s
  case bne => exact branchInstr_of_clear s.flags.z off s
  case beq => exact branchInstr_of_set s.flags.z off s

end Sys2Proof.Machine
end

section
/-! PROOF of O55: the values of operands. -/

namespace Sys2Proof.Machine

/-- The value of an operand that resolves to an address is what reading the address answers. -/
theorem operandValue_of_address {o : Operand} {s : State} {ea : Addr} (h : resolve o s = .next (.addr ea)) :
    operandValue o s = memRead ea s := by
  rw [operandValue, h, andThen_next, loadOperand]

/-- Settles O55: the byte of an effective address is a read of memory, which its cell or the forbidden region answers. -/
theorem operandValueIsTheByteItDesignates : Obligations.OperandValueIsTheByteItDesignates := by
  unfold Obligations.OperandValueIsTheByteItDesignates
  refine ⟨fun v s => rfl, fun s => rfl, fun w s => rfl, fun o s ea h => ?_⟩
  rw [operandValue_of_address h]
  exact ⟨fun k hk => memRead_of_cell hk s, fun hf => memRead_of_forbidden hf s⟩

end Sys2Proof.Machine
end

section
/-! PROOF of O22, O24: addition with Carry, and the comparisons. -/

namespace Sys2Proof.Machine

/-- The adder of R130 in the spec's words: the overflow compares bit 7 of the result with that of the first addend. -/
theorem addWithCarry_eq (a m : Byte) (c : Bool) :
    addWithCarry a m c =
      let sum := a.toNat + m.toNat + (if c then 1 else 0)
      let r := BitVec.ofNat 8 sum
      (r, decide (255 < sum), decide (r.getLsbD 7 ≠ a.getLsbD 7)) := by
  have differ (p q : Bool) : decide (p ≠ q) = (p != q) := decide_not
  simp only [getLsbD_seven, differ]
  rfl

theorem afterAdd_eq_zeroNegative (r : Byte) (c v : Bool) (f : Flags) :
    f.afterAdd (r, c, v) = zeroNegative r { f with c := c, v := v } :=
  setZN_eq_zeroNegative ..

theorem afterCompare_eq_zeroNegative (r : Byte) (c : Bool) (f : Flags) :
    f.afterCompare (r, c) = zeroNegative r { f with c := c } :=
  setZN_eq_zeroNegative ..

/-- An addition to `A`, as a record: the sum over the numbers and its low byte. -/
theorem commit_addToA (m : Byte) (n : Nat) (s : State) :
    commit none n (addToA m s) =
      let sum := s.a.toNat + m.toNat + (if s.flags.c then 1 else 0)
      let r := BitVec.ofNat 8 sum
      { s with
        a := r
        flags := zeroNegative r { s.flags with c := decide (255 < sum), v := decide (r.getLsbD 7 ≠ s.a.getLsbD 7) }
        pc := s.pc + BitVec.ofNat 16 n } := by
  rw [addToA, addWithCarry_eq, afterAdd_eq_zeroNegative]
  rfl

/-- A comparison reads its operand and replaces the flags alone. -/
theorem compareInstr_of_value {reg m : Byte} {o : Operand} {s : State} (h : operandValue o s = .next m) :
    compareInstr reg o s = .next { s with
      flags := zeroNegative (reg - m) { s.flags with c := decide (m.toNat ≤ reg.toNat) }
      pc := s.pc + BitVec.ofNat 16 o.len } := by
  rw [← afterCompare_eq_zeroNegative]
  exact readInstr_of_value h

/-- Settles O22: ADC reads its operand and adds it to `A`. -/
theorem addWithCarryAddsInBinary : Obligations.AddWithCarryAddsInBinary := by
  unfold Obligations.AddWithCarryAddsInBinary
  intro i s hm
  refine ⟨fun m h => ?_, fun f h => exec_fault_of_operandValue (by simp [hm]) h⟩
  rw [exec_eq_execOp, hm]
  exact (readInstr_of_value h).trans (congrArg _ (commit_addToA m i.len s))

/-- Settles O24: each of the three is the comparison of its register with its operand. -/
theorem comparesSetFlagsOnly : Obligations.ComparesSetFlagsOnly := by
  unfold Obligations.ComparesSetFlagsOnly
  rintro i s reg (⟨hm, rfl⟩ | ⟨hm, rfl⟩ | ⟨hm, rfl⟩)
  all_goals
    refine ⟨fun m h => ?_, fun f h => exec_fault_of_operandValue (by simp [hm]) h⟩
    rw [exec_eq_execOp, hm]
    exact compareInstr_of_value h

end Sys2Proof.Machine
end

section
/-! SUPPORT. A rotation of nine bits through Carry, repeated nine times. -/

namespace Sys2Proof.Machine

/-- The byte with the Carry above it, as the word of nine bits that R140 rotates. -/
def nineBits (p : Byte × Bool) : BitVec 9 := BitVec.ofBool p.2 ++ p.1

theorem nineBits_eq_cons (p : Byte × Bool) : nineBits p = BitVec.cons p.2 p.1 := rfl

/-- The byte and the Carry can be read back from the nine bits. -/
theorem nineBits_injective : Function.Injective nineBits := by
  have back : Function.LeftInverse (fun w : BitVec 9 => (w.setWidth 8, w.msb)) nineBits := fun p => by
    simp only [nineBits_eq_cons, BitVec.setWidth_cons, BitVec.msb_cons]
  exact back.injective

theorem rotateLeft_zero {w : Nat} (x : BitVec w) : x.rotateLeft 0 = x := by
  apply BitVec.eq_of_getMsbD_eq
  intro i hi
  simp only [BitVec.getMsbD_rotateLeft, hi, decide_true, Bool.true_and, Nat.zero_add, Nat.mod_eq_of_lt]

theorem rotateLeft_rotateLeft {w : Nat} (x : BitVec w) (j k : Nat) :
    (x.rotateLeft j).rotateLeft k = x.rotateLeft (j + k) := by
  apply BitVec.eq_of_getMsbD_eq
  intro i hi
  have inside : (k + i) % w < w := Nat.mod_lt _ (by omega)
  simp only [BitVec.getMsbD_rotateLeft, hi, inside, decide_true, Bool.true_and, Nat.add_mod_mod, Nat.add_assoc]

/-- In nine bits, one place right is eight places left. -/
theorem rotateRight_one_eq_rotateLeft (x : BitVec 9) : x.rotateRight 1 = x.rotateLeft 8 := BitVec.or_comm ..

/-- A move of the byte and the Carry that rotates their nine bits by `k` rotates them by `n * k` after `n` moves. -/
theorem nineBits_repeat {move : Byte × Bool → Byte × Bool} {k : Nat}
    (h : ∀ p, nineBits (move p) = (nineBits p).rotateLeft k) (n : Nat) (p : Byte × Bool) :
    nineBits (Nat.repeat move n p) = (nineBits p).rotateLeft (n * k) := by
  induction n with
  | zero => rw [Nat.repeat, Nat.zero_mul, rotateLeft_zero]
  | succ n ih => rw [Nat.repeat, h, ih, rotateLeft_rotateLeft, Nat.succ_mul]

/-- Nine moves rotate by a multiple of nine, and so by nothing. -/
theorem repeat_nine_of_rotates {move : Byte × Bool → Byte × Bool} {k : Nat}
    (h : ∀ p, nineBits (move p) = (nineBits p).rotateLeft k) (p : Byte × Bool) : Nat.repeat move 9 p = p := by
  apply nineBits_injective
  calc nineBits (Nat.repeat move 9 p)
    _ = (nineBits p).rotateLeft (9 * k) := nineBits_repeat h 9 p
    _ = (nineBits p).rotateLeft (9 * k % 9) := BitVec.rotateLeft_mod_eq_rotateLeft.symm
    _ = nineBits p := by rw [Nat.mul_mod_right, rotateLeft_zero]

end Sys2Proof.Machine
end

section
/-! PROOF of O27: the rotates through Carry. -/

namespace Sys2Proof.Machine

/-- ROL bit by bit (R140): the old Carry in bit 0, every other bit from the place below. -/
theorem getLsbD_rol (m : Byte) (c : Bool) {i : Nat} (hi : i < 8) :
    (rol m c).1.getLsbD i = if i = 0 then c else m.getLsbD (i - 1) := by
  rw [← Option.some.inj (shiftSpec_rol m c)]
  rcases i with _ | j
  · cases c <;> simp
  · have inside : j < 8 := by omega
    cases c <;> simp [hi, inside]

/-- ROR bit by bit (R140): the old Carry in bit 7, every other bit from the place above. -/
theorem getLsbD_ror (m : Byte) (c : Bool) {i : Nat} (hi : i < 8) :
    (ror m c).1.getLsbD i = if i = 7 then c else m.getLsbD (i + 1) := by
  rw [← Option.some.inj (shiftSpec_ror m c)]
  by_cases top : i = 7
  · subst top
    cases c <;> simp
  · have entering : (0x80#8).getLsbD i = false := by decide +revert
    cases c <;> simp [top, entering, Nat.add_comm]

/-- The bit that leaves the byte is the new Carry, and the old Carry enters at bit 0: a rotation of nine bits. -/
theorem nineBits_rol (m : Byte) (c : Bool) : nineBits (rol m c) = (nineBits (m, c)).rotateLeft 1 := by
  apply BitVec.eq_of_getLsbD_eq
  intro i hi
  simp only [nineBits_eq_cons, BitVec.getLsbD_cons, BitVec.getLsbD_rotateLeft]
  by_cases carry : i = 8
  · subst carry; rfl
  · rw [getLsbD_rol m c (by omega)]
    rcases i with _ | j
    · rfl
    · have inside : j < 8 := by omega
      simp [carry, hi, inside, Nat.ne_of_lt inside]

theorem nineBits_ror (m : Byte) (c : Bool) : nineBits (ror m c) = (nineBits (m, c)).rotateRight 1 := by
  apply BitVec.eq_of_getLsbD_eq
  intro i hi
  simp only [nineBits_eq_cons, BitVec.getLsbD_cons, BitVec.getLsbD_rotateRight]
  by_cases carry : i = 8
  · subst carry; rfl
  · rw [getLsbD_ror m c (by omega)]
    have inside : i < 8 := by omega
    simp [inside, Nat.ne_of_lt inside, Nat.add_comm]

/-- Settles O27: each rotate is a rotation of the nine bits, left by one or by eight, so that nine of it are none. -/
theorem rotatesAreNineBitRotations : Obligations.RotatesAreNineBitRotations := by
  unfold Obligations.RotatesAreNineBitRotations
  refine ⟨nineBits_rol, nineBits_ror, ?rolNine, ?rorNine⟩
  case rolNine => exact repeat_nine_of_rotates fun p => nineBits_rol p.1 p.2
  case rorNine =>
    exact repeat_nine_of_rotates fun p => (nineBits_ror p.1 p.2).trans (rotateRight_one_eq_rotateLeft _)

end Sys2Proof.Machine
end

section
/-! PROOF of O40: a call and its return. -/

namespace Sys2Proof.Machine

/-- Popping the word just pushed gives it back and moves `SP` back, wherever `pc` went in between. -/
theorem popWord_pushWord {w pc : Addr} {s u : State} (wf : Inv s) (h : pushWord w s = .next u) :
    popWord (u.withPC pc) = .next (w, (u.withPC pc).withSP s.sp) := by
  cases (pushWord_eq w s).symm.trans h
  have between : (s.mem.write (stackCell s.cfg s.sp) (highByte w)).wf = true := wf_write wf (isCell_stackCell ..)
  have distinct : stackCell s.cfg s.sp ≠ stackCell s.cfg (s.sp - 1) := fun e => by
    have : s.sp = s.sp - 1 := stackCell_inj e
    bv_omega
  have up (p : Byte) : p - 1 + 1 = p := BitVec.sub_add_cancel ..
  rw [popWord_eq]
  simp only [withPC_mem, withPC_cfg, withPC_sp, withSP_mem, withSP_cfg, withSP_sp, withMem_mem, withMem_cfg, up]
  rw [read_write_same between, read_write_other between distinct, read_write_same wf,
    joinBytes_lowByte_highByte]

/-- Settles O40: JSR pushes `pc + 2`, and RTS pops it back and returns to the address after it. -/
theorem jsrThenRtsReturnsAfterTheCall : Obligations.JsrThenRtsReturnsAfterTheCall := by
  unfold Obligations.JsrThenRtsReturnsAfterTheCall
  intro w s wf
  obtain ⟨u, hu⟩ : ∃ u, pushWord (s.pc + 2) s = .next u := ⟨_, pushWord_eq ..⟩
  obtain ⟨ha, hx, hy, hflags, -, -, -⟩ := pushWord_next hu
  have call : exec (.jsr w) s = .next (u.withPC w) := (opJsr_next (o := .abs w)).2 ⟨w, u, rfl, hu, rfl⟩
  have back : exec .rts (u.withPC w) = .next (((u.withPC w).withSP s.sp).withPC (s.pc + 2 + 1)) := by
    have ret : exec .rts (u.withPC w) = returnTo (u.withPC w) := rfl
    rw [ret, returnTo, popWord_pushWord wf hu]
    rfl
  have after : s.pc + 2 + 1 = s.pc + 3 := BitVec.add_assoc ..
  exact ⟨_, _, call, back, after, rfl, ha, hx, hy, hflags,
    fun p high low => (pushWord_frame wf hu high low : memRead p u = memRead p s)⟩

end Sys2Proof.Machine
end

section
/-! PROOF of O23: the adder of R130 at the complemented operand is a subtraction with borrow. -/

namespace Sys2Proof.Machine

/-- The one's complement of R221, as a number. -/
theorem complement_toNat (m : Byte) : (m ^^^ 0xFF#8).toNat = 255 - m.toNat :=
  calc (m ^^^ 0xFF#8).toNat = (~~~m).toNat := congrArg _ BitVec.xor_allOnes
    _ = 255 - m.toNat := BitVec.toNat_not

/-- What the adder sums for R221 is 256 more than the difference with borrow. -/
theorem sum_complement_eq_diff_add_256 (a m : Byte) (c : Bool) :
    ((a.toNat + (m ^^^ 0xFF#8).toNat + (if c then 1 else 0) : Nat) : Int) =
      a.toNat - m.toNat - (if c then 0 else 1) + 256 := by
  have bound : m.toNat < 256 := m.isLt
  rw [complement_toNat]
  split <;> omega

theorem ofNat_eq_ofInt_of_eq_add_256 {n : Nat} {d : Int} (h : (n : Int) = d + 256) :
    BitVec.ofNat 8 n = BitVec.ofInt 8 d := by
  rw [← BitVec.ofInt_natCast, h, BitVec.ofInt_add]
  exact BitVec.add_zero ..

theorem carry_iff_nonneg_of_eq_add_256 {n : Nat} {d : Int} (h : (n : Int) = d + 256) : 255 < n ↔ 0 ≤ d := by
  omega

/-- An addition of the complement to `A`, as a record: the difference over the integers, and Carry where nothing is borrowed. -/
theorem commit_addToA_complement (m : Byte) (n : Nat) (s : State) :
    commit none n (addToA (m ^^^ 0xFF#8) s) =
      let diff : Int := (s.a.toNat : Int) - (m.toNat : Int) - (if s.flags.c then 0 else 1)
      let r := BitVec.ofInt 8 diff
      { s with
        a := r
        flags := zeroNegative r { s.flags with c := decide (0 ≤ diff), v := decide (r.getLsbD 7 ≠ s.a.getLsbD 7) }
        pc := s.pc + BitVec.ofNat 16 n } := by
  have shifted := sum_complement_eq_diff_add_256 s.a m s.flags.c
  simp only [commit_addToA, ofNat_eq_ofInt_of_eq_add_256 shifted, carry_iff_nonneg_of_eq_add_256 shifted]

/-- Settles O23: SBC reads its operand and adds its complement to `A`. -/
theorem subtractBorrowsWhenCarryIsClear : Obligations.SubtractBorrowsWhenCarryIsClear := by
  unfold Obligations.SubtractBorrowsWhenCarryIsClear
  intro i s hm
  refine ⟨fun m h => ?_, fun f h => exec_fault_of_operandValue (by simp [hm]) h⟩
  rw [exec_eq_execOp, hm]
  exact (readInstr_of_value h).trans (congrArg _ (commit_addToA_complement m i.len s))

end Sys2Proof.Machine
end

section
/-! PROOF of O42: the one-byte instructions of the extension set. -/

namespace Sys2Proof.Machine

/-- Settles O42: a transfer to `X`, a write of `SP` alone, the flag operation with `D` a constant, and no change. -/
theorem extensionOneByteInstructions : Obligations.ExtensionOneByteInstructions := by
  unfold Obligations.ExtensionOneByteInstructions
  refine ⟨⟨rfl, ?tsx⟩, ⟨rfl, ?txs⟩, ⟨rfl, ?cld⟩, ⟨rfl, ?sed⟩, ⟨rfl, ?nop⟩⟩
  case tsx => exact runsAs_of_exec rfl fun s => congrArg _ (commit_putX s.sp 1 s)
  case txs => exact runsAs_of_exec rfl fun s => rfl
  case cld => exact runsAs_of_flagInstr (flags := fun f => { f with d := false }) rfl fun s => rfl
  case sed => exact runsAs_of_flagInstr (flags := fun f => { f with d := true }) rfl fun s => rfl
  case nop => exact runsAs_of_exec rfl fun s => rfl

end Sys2Proof.Machine
end
